-- ==== Sys2Proof/Word.lean ====
section
/-!
DEFINITION. The two word types of the machine (00_scope R7): every register but the program counter is 8 bits wide,
addresses and the program counter are 16 bits wide. Arithmetic on both wraps (10_state R22, R23, 41_arithmetic R100).
-/

namespace Sys2Proof

/-- An unsigned 8-bit value, `u8` of 00_scope R9. -/
abbrev Byte := BitVec 8

/-- An unsigned 16-bit value, `u16` of 00_scope R9: an address or the program counter. -/
abbrev Addr := BitVec 16

end Sys2Proof
end

