-- ==== Sys2Proof/Machine/Bits.lean ====
section
/-!
DEFINITION. Byte order, extension and paging helpers of 00_scope R9, 20_memory R48 and 30_encoding R77.
-/

namespace Sys2Proof

/-- `(zext_16(hi) << 8) | zext_16(lo)` (00_scope R9). -/
def word16 (hi lo : Byte) : Addr := hi ++ lo

/-- `a[15:8]`. -/
def hiByte (a : Addr) : Byte := a.extractLsb' 8 8

/-- `a[7:0]`. -/
def loByte (a : Addr) : Byte := a.extractLsb' 0 8

/-- `zext_16(v)` (00_scope R9). -/
def zext16 (v : Byte) : Addr := v.setWidth 16

/-- `sext_16(v)`: bit 7 copied into bits 15..8 (00_scope R9). -/
def sext16 (v : Byte) : Addr := v.signExtend 16

/-- `crossed(a, b)`: the two addresses lie in different 256-byte pages (30_encoding R77). -/
def pageCrossed (a b : Addr) : Bool := hiByte a != hiByte b

/-- The `k`-th byte of a number, byte 0 the least significant. -/
def byteOf (w k : Nat) : Byte := BitVec.ofNat 8 (w / 256 ^ k)

end Sys2Proof
end

