-- ==== Sys2Proof/Machine/Flags.lean ====
section
/-!
DEFINITION. The status register's bits (10_state R24) and every flag computation of the spec, as functions of the
operand bytes and of P. Sums and differences are formed exactly and then reduced (41_arithmetic R100).
-/

namespace Sys2Proof.Machine

/-- The eight named bits of P (10_state R24). -/
inductive Flag where
  | carry | zero | interruptDisable | decimal | brk | unused | overflow | negative
  deriving DecidableEq, Repr

/-- The bit position (10_state R24). -/
def Flag.bit : Flag → Nat
  | .carry => 0
  | .zero => 1
  | .interruptDisable => 2
  | .decimal => 3
  | .brk => 4
  | .unused => 5
  | .overflow => 6
  | .negative => 7

/-- Read one bit of a status byte. -/
def getFlag (f : Flag) (p : Byte) : Bool := p.getLsbD f.bit

/-- A status byte with one bit written and the others kept. -/
def setFlag (f : Flag) (v : Bool) (p : Byte) : Byte :=
  if v then p ||| BitVec.twoPow 8 f.bit else p &&& ~~~(BitVec.twoPow 8 f.bit)

/-- `P.C` as a number in integer arithmetic. -/
def carryNat (p : Byte) : Nat := (getFlag .carry p).toNat

/-- `SetNZ(v)` (00_scope R13). -/
def setNZ (v p : Byte) : Byte := setFlag .negative v.msb (setFlag .zero (v == 0x00) p)

/-- What PHP and BRK push: Break and Unused forced to 1 (46_stack_system R245, R247). -/
def pushedStatus (p : Byte) : Byte := p ||| 0x30

/-- What PLP restores: Unused forced to 1, Break as pulled (46_stack_system R246). -/
def statusFromPlp (v : Byte) : Byte := v ||| 0x20

/-- What RTI restores: Break forced to 0, Unused as pulled (46_stack_system R248, D5). -/
def statusFromRti (v : Byte) : Byte := v &&& 0xEF

/-- ADC (41_arithmetic R101): the new A and the new P, from the old A, the operand and the old P. -/
def adcByte (a v p : Byte) : Byte × Byte :=
  let sum : Nat := a.toNat + v.toNat + carryNat p
  let r : Byte := BitVec.ofNat 8 sum
  (r, setNZ r (setFlag .overflow ((~~~(a ^^^ v) &&& (a ^^^ r) &&& 0x80) != 0x00)
        (setFlag .carry (decide (sum > 255)) p)))

/-- SBC (41_arithmetic R102): carry means no borrow. -/
def sbcByte (a v p : Byte) : Byte × Byte :=
  let diff : Int := (a.toNat : Int) - (v.toNat : Int) - (1 - (carryNat p : Int))
  let r : Byte := BitVec.ofInt 8 diff
  (r, setNZ r (setFlag .overflow (((a ^^^ v) &&& (a ^^^ r) &&& 0x80) != 0x00)
        (setFlag .carry (decide (diff ≥ 0)) p)))

/-- CMP, CPX, CPY (41_arithmetic R103 to R105): the new P from the compared register, the operand and the old P. -/
def compareByte (r v p : Byte) : Byte :=
  setFlag .negative (r - v).msb
    (setFlag .zero (r == v) (setFlag .carry (decide (r.toNat ≥ v.toNat)) p))

/-- BIT (42_logical_shift R133). -/
def bitTestByte (a v p : Byte) : Byte :=
  setFlag .negative (v.getLsbD 7) (setFlag .overflow (v.getLsbD 6) (setFlag .zero ((a &&& v) == 0x00) p))

/-- AND, ORA, EOR (42_logical_shift R130 to R132): the result and the new P. -/
def andByte (a v p : Byte) : Byte × Byte := (a &&& v, setNZ (a &&& v) p)

@[inherit_doc andByte] def oraByte (a v p : Byte) : Byte × Byte := (a ||| v, setNZ (a ||| v) p)

@[inherit_doc andByte] def eorByte (a v p : Byte) : Byte × Byte := (a ^^^ v, setNZ (a ^^^ v) p)

/-- INC, INX, INY (41_arithmetic R106, R108, R109): the result modulo 256 and the new P; never Carry. -/
def incByte (v p : Byte) : Byte × Byte := (v + 1, setNZ (v + 1) p)

/-- DEC, DEX, DEY (41_arithmetic R107, R110, R111). -/
def decByte (v p : Byte) : Byte × Byte := (v - 1, setNZ (v - 1) p)

/-- ASL (42_logical_shift R134): bit 7 goes to Carry. -/
def aslByte (v p : Byte) : Byte × Byte :=
  (v <<< 1, setNZ (v <<< 1) (setFlag .carry (v.getLsbD 7) p))

/-- LSR (42_logical_shift R135): bit 0 goes to Carry. -/
def lsrByte (v p : Byte) : Byte × Byte :=
  (v >>> 1, setNZ (v >>> 1) (setFlag .carry (v.getLsbD 0) p))

/-- The old Carry in bit 0, all other bits 0. -/
def carryByte (p : Byte) : Byte := BitVec.ofNat 8 (carryNat p)

/-- ROL (42_logical_shift R136): old Carry into bit 0, bit 7 to Carry. -/
def rolByte (v p : Byte) : Byte × Byte :=
  let r := (v <<< 1) ||| carryByte p
  (r, setNZ r (setFlag .carry (v.getLsbD 7) p))

/-- ROR (42_logical_shift R137): old Carry into bit 7, bit 0 to Carry. -/
def rorByte (v p : Byte) : Byte × Byte :=
  let r := (v >>> 1) ||| (carryByte p <<< 7)
  (r, setNZ r (setFlag .carry (v.getLsbD 0) p))

end Sys2Proof.Machine
end

