-- ==== Sys2Proof/Config.lean ====
section
/-!
DEFINITION. What is fixed when the machine is constructed (00_scope R8, 70_reset_and_hazards R304), and the free values:
the behaviour of devices the spec leaves to the platform (20_memory R46, 93_implementation_defined U5).
-/

namespace Sys2Proof

/-- The read-only parameters of the core: "supplied at construction, read-only during execution" (10_state R34). They
stand in State.config, so that a claim holds for every setting; no instruction writes them. -/
structure CoreConfig where
  /-- `emulateIndirectJmpBug` (30_encoding R73). The spec gives no default (D12). -/
  jmpBug : Bool
  /-- Whether BRK sets P.I after its status push (46_stack_system R247); `true` for this hardware (D3). -/
  brkSetsI : Bool
  deriving DecidableEq, Repr

/-- The state of a device other than memory: latches and backing bytes, as plain data (20_memory R46). -/
abbrev DeviceState := List Byte

/-- DESIGN CHOICE (log 4), unsafe: the parameters in State.reset. The spec leaves `jmpBug` OPEN (D12); `true` is what
95_test_vectors.md assumes. `brkSetsI = true` is the spec's D3 (log 5). -/
def Config.atReset : CoreConfig := { jmpBug := true, brkSetsI := true }

/-- FREE VALUE (log 6), safe: what a device other than memory answers to a read at a device-local offset, and its state
after the read, which may differ (20_memory R46, D20). The first argument tells devices apart. No body: nothing can be
proved about the answer. -/
opaque Config.externalRead (unit : Nat) (state : DeviceState) (offset : Addr) : Byte × DeviceState

/-- FREE VALUE (log 6), safe: the state of a device other than memory after a write of a byte at a device-local offset
(20_memory R46). No body. -/
opaque Config.externalWrite (unit : Nat) (state : DeviceState) (offset : Addr) (value : Byte) : DeviceState

end Sys2Proof
end

