-- ==== Sys2Proof/Machine/State.lean ====
section
/-!
DEFINITION. The state of the machine as plain data (10_state R37): the register file, the bus with the state of every
device on it, the read-only parameters and the reset-done flag; the reasons a step can stop; and the state after reset.
-/

namespace Sys2Proof.Machine

/-- The bytes a memory device stores, by device-local offset, in one canonical form: offsets strictly rising, and no
entry equal to what an unlisted offset reads as (`Memory.unlisted`). -/
abbrev Memory := List Host.Cell

/-- A device on the bus (20_memory R46): what answers a read or a write at a device-local offset. `size` is the number
of offsets the device answers (R45). -/
inductive Device where
  /-- Flat memory: a read returns the stored byte and changes nothing, a write stores (R47). -/
  | ram (size : Nat) (cells : Memory)
  /-- Write-ignoring memory: a read returns the stored byte, a write changes nothing (R46, R50; log 7). -/
  | rom (size : Nat) (cells : Memory)
  /-- Any other device; reads and writes act on its state by `Config.externalRead` and `Config.externalWrite` (log 6). -/
  | external (unit : Nat) (size : Nat) (state : DeviceState)
  deriving DecidableEq, Repr

/-- One binding of the bus: an inclusive address range and the device that owns it (20_memory R40). -/
structure Binding where
  first  : Addr
  last   : Addr
  device : Device
  deriving DecidableEq, Repr

/-- The bus arbiter's bindings in registration order (20_memory R40). -/
abbrev Bus := List Binding

/-- The machine (10_state R37). There is no other architectural state (R20, R34, R36). -/
structure State where
  /-- The accumulator (R21). -/
  a  : Byte
  /-- Index register X (R21). -/
  x  : Byte
  /-- Index register Y (R21). -/
  y  : Byte
  /-- The stack pointer, an offset into page 0x01 (R23). -/
  sp : Byte
  /-- The status register P, all eight bits stored (R24). -/
  p  : Byte
  /-- The program counter: between steps, the address of the next opcode (R22). -/
  pc : Addr
  /-- The bindings and the state of every device (20_memory R40, R46). -/
  bus : Bus
  /-- The parameters fixed at construction (00_scope R8). -/
  config : CoreConfig
  /-- Whether reset has been performed (70_reset_and_hazards R303). -/
  resetDone : Bool
  deriving DecidableEq, Repr

/-- Faults. THERE IS NONE: "the core has no fatal internal error path", every state transition is total
(60_exceptions R270). -/
inductive Fault where
  deriving DecidableEq, Repr

/-- Why the model makes no transition. -/
inductive Refusal where
  /-- Raised by `exec` for an instruction that has no meaning yet; no arm raises it. Safe: the model stops. -/
  | notModelled (mnemonic : String)
  /-- Raised by `step` and by the host operations that run the core before the first reset (70_reset_and_hazards R303,
  D11). Safe: the model stops. -/
  | beforeReset
  /-- Raised by `step` and by the host operations on a bus configuration in which a binding's range is larger than its
  device (20_memory R45, D23, U1). Safe: the model stops. -/
  | busConfiguration
  deriving DecidableEq, Repr

/-- The default platform: one flat RAM of 65536 bytes over the whole address space, nothing listed (20_memory R47;
log 2, log 3). -/
def State.defaultBus : Bus := [{ first := 0x0000, last := 0xFFFF, device := .ram 65536 [] }]

/-- The machine right after reset on the default platform (70_reset_and_hazards R300). PC is the reset vector read from
0xFFFC/0xFFFD; with nothing listed in memory both bytes read 0x00 (log 3). -/
def State.reset : State where
  a  := 0x00
  x  := 0x00
  y  := 0x00
  sp := 0xFD
  p  := 0x24
  pc := 0x0000
  bus := State.defaultBus
  config := Config.atReset
  resetDone := true

end Sys2Proof.Machine
end

