-- ==== Sys2Proof/Machine/Memory.lean ====
section
/-!
DEFINITION. Memory devices, the device contract and the bus arbiter (20_memory R40 to R47).
-/

namespace Sys2Proof.Machine

/-- What an unlisted byte of a memory device reads as. DESIGN CHOICE (log 3), unsafe: the spec gives no initial contents
(D10); zero is what 95_test_vectors.md assumes. -/
def Memory.unlisted : Byte := 0x00

/-- The byte at an offset. -/
def Memory.read : Memory → Nat → Byte
  | [], _ => Memory.unlisted
  | (j, v) :: m, k => if j = k then v else Memory.read m k

/-- The memory with one byte stored, in canonical form again: storing what an unlisted byte reads as removes the
entry. -/
def Memory.write : Memory → Nat → Byte → Memory
  | [], k, v => if v = Memory.unlisted then [] else [(k, v)]
  | (j, w) :: m, k, v =>
    if k < j then (if v = Memory.unlisted then (j, w) :: m else (k, v) :: (j, w) :: m)
    else if k = j then (if v = Memory.unlisted then m else (k, v) :: m)
    else (j, w) :: Memory.write m k v

/-- Canonical form above a lower bound: offsets strictly rising from `lo`, no entry equal to `Memory.unlisted`. -/
def Memory.wfFrom : Nat → Memory → Bool
  | _, [] => true
  | lo, (j, v) :: m => decide (lo ≤ j) && (v != Memory.unlisted) && Memory.wfFrom (j + 1) m

/-- The canonical form of a memory. -/
def Memory.wf (m : Memory) : Bool := Memory.wfFrom 0 m

/-- The number of offsets the device answers (20_memory R45). -/
def Device.size : Device → Nat
  | .ram n _ => n
  | .rom n _ => n
  | .external _ n _ => n

/-- `read : state -> u16 -> (u8, state)` (20_memory R46). -/
def Device.read : Device → Addr → Byte × Device
  | .ram n m, o => (Memory.read m o.toNat, .ram n m)
  | .rom n m, o => (Memory.read m o.toNat, .rom n m)
  | .external u n st, o =>
    ((Config.externalRead u st o).1, .external u n (Config.externalRead u st o).2)

/-- `write : state -> u16 -> u8 -> state` (20_memory R46). -/
def Device.write : Device → Addr → Byte → Device
  | .ram n m, o, v => .ram n (Memory.write m o.toNat v)
  | .rom n m, _, _ => .rom n m
  | .external u n st, o, v => .external u n (Config.externalWrite u st o v)

/-- Whether the device is a memory, whose reads change nothing (20_memory R50). -/
def Device.isMemory : Device → Bool
  | .ram _ _ => true
  | .rom _ _ => true
  | .external _ _ _ => false

/-- A memory device holds its bytes in canonical form, at offsets it answers. -/
def Device.wf : Device → Bool
  | .ram n m => Memory.wf m && m.all (fun c => decide (c.1 < n))
  | .rom n m => Memory.wf m && m.all (fun c => decide (c.1 < n))
  | .external _ _ _ => true

/-- `start_i <= addr <= end_i` (20_memory R41). -/
def Binding.contains (b : Binding) (addr : Addr) : Bool :=
  decide (b.first.toNat ≤ addr.toNat) && decide (addr.toNat ≤ b.last.toNat)

/-- The configuration check of 20_memory R45: a non-empty range is no larger than its device. -/
def Binding.fits (b : Binding) : Bool :=
  decide (b.first.toNat ≤ b.last.toNat → b.last.toNat - b.first.toNat < b.device.size)

/-- A bus configuration that the model accepts (20_memory R45); overlap is accepted (R43). -/
def Bus.fits (bus : Bus) : Bool := bus.all Binding.fits

/-- Every memory on the bus is in canonical form. -/
def Bus.wf (bus : Bus) : Bool := bus.all fun b => b.device.wf

/-- `MemRead(addr, 1)` (20_memory R41): the first binding that contains the address answers, at the offset from the
binding's start, and may change its device; no binding: 0x00, nothing changed (R44). -/
def Bus.read : Bus → Addr → Byte × Bus
  | [], _ => (0x00, [])
  | b :: rest, addr =>
    if b.contains addr then
      ((b.device.read (addr - b.first)).1, { b with device := (b.device.read (addr - b.first)).2 } :: rest)
    else ((Bus.read rest addr).1, b :: (Bus.read rest addr).2)

/-- `MemWrite(addr, 1, v)` (20_memory R42): same lookup; no binding: nothing happens (R44). -/
def Bus.write : Bus → Addr → Byte → Bus
  | [], _, _ => []
  | b :: rest, addr, v =>
    if b.contains addr then { b with device := b.device.write (addr - b.first) v } :: rest
    else b :: Bus.write rest addr v

/-- The byte a read of the address would return now (20_memory R59: the host inspects memory through the bus). -/
def Bus.peek (bus : Bus) (addr : Addr) : Byte := (bus.read addr).1

/-- The binding that serves an address: the first that contains it (20_memory R43). -/
def Bus.serving (bus : Bus) (addr : Addr) : Option Binding := bus.find? fun b => b.contains addr

/-- No device other than memory serves the address, so that a read of it changes nothing (20_memory R50). -/
def Bus.plainAt (bus : Bus) (addr : Addr) : Bool :=
  match bus.serving addr with
  | none => true
  | some b => b.device.isMemory

/-- RAM serves the address, so that a write to it is what a later read returns (20_memory R47). -/
def Bus.ramAt (bus : Bus) (addr : Addr) : Bool :=
  match bus.serving addr with
  | some { device := .ram _ _, .. } => true
  | _ => false

/-- Two byte reads, in this order, of the low and the high byte of a 16-bit quantity (00_scope R11, 20_memory R48). -/
def Bus.readPair (bus : Bus) (lo hi : Addr) : Addr × Bus :=
  (word16 ((bus.read lo).2.read hi).1 (bus.read lo).1, ((bus.read lo).2.read hi).2)

end Sys2Proof.Machine
end

