-- ==== Sys2Proof/Machine/Ops.lean ====
section
/-!
DEFINITION. The named operations over registers and the bus: operand fetch, the stack, the one trap entry (BRK) and its
return (RTI), and the shapes that instructions share.
-/

namespace Sys2Proof.Machine

/-- What a meaning answers. -/
abbrev Result := Host.Outcome State Fault Refusal

/-- `Fetch8()` (00_scope R12): the byte at PC, and the state with PC advanced. -/
def fetch8 (s : State) : Byte × State :=
  ((s.bus.read s.pc).1, { s with bus := (s.bus.read s.pc).2, pc := s.pc + 1 })

/-- The stack address of an SP value, always in page 0x01 (10_state R23). -/
def stackAddr (sp : Byte) : Addr := 0x0100 + zext16 sp

/-- `Push(v)` (46_stack_system R240): write, then decrement SP modulo 256. -/
def push (v : Byte) (s : State) : State :=
  { s with bus := s.bus.write (stackAddr s.sp) v, sp := s.sp - 1 }

/-- `Pull()` (46_stack_system R241): increment SP modulo 256, then read. -/
def pull (s : State) : Byte × State :=
  ((s.bus.read (stackAddr (s.sp + 1))).1,
    { s with bus := (s.bus.read (stackAddr (s.sp + 1))).2, sp := s.sp + 1 })

/-- Two pushes, high byte first (20_memory R48). -/
def pushWord (w : Addr) (s : State) : State := push (loByte w) (push (hiByte w) s)

/-- Two pulls, low byte first. -/
def pullWord (s : State) : Addr × State :=
  (word16 (pull (pull s).2).1 (pull s).1, (pull (pull s).2).2)

/-- The state with one flag written. -/
def State.withFlag (f : Flag) (v : Bool) (s : State) : State := { s with p := setFlag f v s.p }

/-- One flag of the state. -/
def State.flag (f : Flag) (s : State) : Bool := getFlag f s.p

/-- A and P written with a result and its status. -/
def setA (r : Byte × Byte) (s : State) : State := { s with a := r.1, p := r.2 }

/-- X and P written with a result and its status. -/
def setX (r : Byte × Byte) (s : State) : State := { s with x := r.1, p := r.2 }

/-- Y and P written with a result and its status. -/
def setY (r : Byte × Byte) (s : State) : State := { s with y := r.1, p := r.2 }

/-- The value of the toggle `emulateIndirectJmpBug` (30_encoding R73). -/
def State.jmpBug (s : State) : Bool := s.config.jmpBug

/-- Whether BRK sets P.I (46_stack_system R247). -/
def State.brkSetsI (s : State) : Bool := s.config.brkSetsI

/-- PC from the BRK vector, low byte 0xFFFE then high byte 0xFFFF (46_stack_system R247, 20_memory R48). -/
def loadBreakVector (s : State) : State :=
  { s with pc := (s.bus.readPair 0xFFFE 0xFFFF).1, bus := (s.bus.readPair 0xFFFE 0xFFFF).2 }

/-- TRAP ENTRY, the core's only one (60_exceptions R276, 46_stack_system R247). On entry PC is the address of the BRK
opcode + 1. Break is set in P; the byte after the opcode is skipped, not read; the return address is pushed high byte
first, then the status with Break and Unused forced to 1; then I is set when `brkSetsI`; then the vector is read. -/
def takeBreak (s : State) : State :=
  let s1 := s.withFlag .brk true
  let s2 := pushWord (s.pc + 1) s1
  let s3 := push (pushedStatus s1.p) s2
  let s4 := if s.brkSetsI then s3.withFlag .interruptDisable true else s3
  loadBreakVector s4

/-- TRAP RETURN (60_exceptions R278, 46_stack_system R248): status with Break forced to 0, then PC low, then PC high. -/
def returnFromBreak (s : State) : State :=
  let v := pull s
  let w := pullWord v.2
  { w.2 with p := statusFromRti v.1, pc := w.1 }

/-- A conditional branch once its offset byte is consumed (45_control_flow R210): PC is the next instruction. -/
def branchIf (cond : Bool) (off : Byte) (s : State) : State :=
  if cond then { s with pc := s.pc + sext16 off } else s

end Sys2Proof.Machine
end

