-- ==== Sys2Proof/Machine/Operands.lean ====
section
/-!
DEFINITION. The addressing-mode resolvers (30_encoding R64 to R76). The operand bytes are arguments: `step` has fetched
them and advanced PC (20_memory R58 puts every operand byte before the pointer reads and the data accesses; log 9).
A resolver reads the bus for the pointer bytes of an indirect mode and writes nothing (C5).
-/

namespace Sys2Proof.Machine

/-- The modes whose operand is a byte of memory at an effective address, with their operand bytes. -/
inductive MemOperand where
  | zp (z : Byte)
  | zpx (z : Byte)
  | zpy (z : Byte)
  | abs (addr : Addr)
  | absx (addr : Addr)
  | absy (addr : Addr)
  | indx (z : Byte)
  | indy (z : Byte)
  deriving DecidableEq, Repr

/-- The 16-bit pointer at a zero-page address, both bytes in page 0 (30_encoding R74, R75, D6). -/
def zeroPagePointer (z : Byte) (bus : Bus) : Addr × Bus :=
  bus.readPair (zext16 z) (zext16 (z + 1))

/-- The address before the index is added and the bus after the pointer reads: what page crossing compares with
(30_encoding R71, R72, R75). Modes without such a base answer with their effective address. -/
def baseAddr (m : MemOperand) (s : State) : Addr × Bus :=
  match m with
  | .zp z => (zext16 z, s.bus)
  | .zpx z => (zext16 (z + s.x), s.bus)
  | .zpy z => (zext16 (z + s.y), s.bus)
  | .abs addr => (addr, s.bus)
  | .absx addr => (addr, s.bus)
  | .absy addr => (addr, s.bus)
  | .indx z => zeroPagePointer (z + s.x) s.bus
  | .indy z => zeroPagePointer z s.bus

/-- The effective address and the bus after the resolver (30_encoding R67 to R72, R74, R75). -/
def effectiveAddr (m : MemOperand) (s : State) : Addr × Bus :=
  match m with
  | .absx _ => ((baseAddr m s).1 + zext16 s.x, (baseAddr m s).2)
  | .absy _ => ((baseAddr m s).1 + zext16 s.y, (baseAddr m s).2)
  | .indy _ => ((baseAddr m s).1 + zext16 s.y, (baseAddr m s).2)
  | .zp _ | .zpx _ | .zpy _ | .abs _ | .indx _ => baseAddr m s

/-- `crossed` of 30_encoding R71, R72, R75; false in the other modes. -/
def indexCrosses (m : MemOperand) (s : State) : Bool :=
  pageCrossed (baseAddr m s).1 (effectiveAddr m s).1

/-- The operand of a read-class instruction: the resolver, then one read at ea (30_encoding R78). -/
def loadByte (m : MemOperand) (s : State) : Byte × Bus :=
  (effectiveAddr m s).2.read (effectiveAddr m s).1

/-- A write-class instruction: the resolver, then one write at ea, no read of it (30_encoding R78). -/
def storeByte (m : MemOperand) (v : Byte) (s : State) : State :=
  { s with bus := (effectiveAddr m s).2.write (effectiveAddr m s).1 v }

/-- A read-modify-write instruction on memory (30_encoding R78): the resolver, one read, one write of `f`'s byte, and
the status `f` gives. -/
def modifyByte (f : Byte → Byte → Byte × Byte) (m : MemOperand) (s : State) : State :=
  let r := f (loadByte m s).1 s.p
  { s with bus := (loadByte m s).2.write (effectiveAddr m s).1 r.1, p := r.2 }

/-- The accumulator form (30_encoding R65): A is read and written, the bus is not used. -/
def modifyA (f : Byte → Byte → Byte × Byte) (s : State) : State :=
  setA (f s.a s.p) s

/-- The operand byte of the immediate mode: the byte itself, no bus access left to make (30_encoding R64). -/
def immediate (v : Byte) (s : State) : Byte × Bus := (v, s.bus)

/-- An instruction that combines A with an operand byte and writes A and P. -/
def accumulate (f : Byte → Byte → Byte → Byte × Byte) (v : Byte × Bus) (s : State) : State :=
  { setA (f s.a v.1 s.p) s with bus := v.2 }

/-- An instruction that reads an operand byte and writes P only: the compares and BIT. -/
def test (f : Byte → Byte → Byte) (v : Byte × Bus) (s : State) : State :=
  { s with p := f v.1 s.p, bus := v.2 }

/-- `JMP (ptr)` (30_encoding R73): low byte at ptr, high byte at ptr + 1, or at ptr & 0xFF00 when the toggle is on and
the pointer's low byte is 0xFF. -/
def indirectTarget (ptr : Addr) (s : State) : Addr × Bus :=
  let hiAddr := if (loByte ptr == 0xFF) && s.jmpBug then ptr &&& 0xFF00 else ptr + 1
  s.bus.readPair ptr hiAddr

end Sys2Proof.Machine
end

