-- ==== Sys2Proof/Machine/Arithmetic.lean ====
section
/-!
DEFINITION. The meanings of ADC, SBC, the compares, and the increments and decrements (41_arithmetic R101 to R111).
On entry PC is the address of the byte after the instruction (10_state R22).
-/

namespace Sys2Proof.Machine

/-- 0x69 `ADC #v` (41_arithmetic R101, 30_encoding R64). -/
def execAdcImm (v : Byte) (s : State) : Result :=
  .next (accumulate adcByte (immediate v s) s)

/-- 0x65 `ADC z` (41_arithmetic R101, 30_encoding R67). -/
def execAdcZp (z : Byte) (s : State) : Result :=
  .next (accumulate adcByte (loadByte (.zp z) s) s)

/-- 0x75 `ADC z,X` (41_arithmetic R101, 30_encoding R68). -/
def execAdcZpx (z : Byte) (s : State) : Result :=
  .next (accumulate adcByte (loadByte (.zpx z) s) s)

/-- 0x6D `ADC addr` (41_arithmetic R101, 30_encoding R70). -/
def execAdcAbs (addr : Addr) (s : State) : Result :=
  .next (accumulate adcByte (loadByte (.abs addr) s) s)

/-- 0x7D `ADC addr,X` (41_arithmetic R101, 30_encoding R71). -/
def execAdcAbsx (addr : Addr) (s : State) : Result :=
  .next (accumulate adcByte (loadByte (.absx addr) s) s)

/-- 0x79 `ADC addr,Y` (41_arithmetic R101, 30_encoding R72). -/
def execAdcAbsy (addr : Addr) (s : State) : Result :=
  .next (accumulate adcByte (loadByte (.absy addr) s) s)

/-- 0x61 `ADC (z,X)` (41_arithmetic R101, 30_encoding R74). -/
def execAdcIndx (z : Byte) (s : State) : Result :=
  .next (accumulate adcByte (loadByte (.indx z) s) s)

/-- 0x71 `ADC (z),Y` (41_arithmetic R101, 30_encoding R75). -/
def execAdcIndy (z : Byte) (s : State) : Result :=
  .next (accumulate adcByte (loadByte (.indy z) s) s)

/-- 0xE9 `SBC #v` (41_arithmetic R102, 30_encoding R64). -/
def execSbcImm (v : Byte) (s : State) : Result :=
  .next (accumulate sbcByte (immediate v s) s)

/-- 0xE5 `SBC z` (41_arithmetic R102, 30_encoding R67). -/
def execSbcZp (z : Byte) (s : State) : Result :=
  .next (accumulate sbcByte (loadByte (.zp z) s) s)

/-- 0xF5 `SBC z,X` (41_arithmetic R102, 30_encoding R68). -/
def execSbcZpx (z : Byte) (s : State) : Result :=
  .next (accumulate sbcByte (loadByte (.zpx z) s) s)

/-- 0xED `SBC addr` (41_arithmetic R102, 30_encoding R70). -/
def execSbcAbs (addr : Addr) (s : State) : Result :=
  .next (accumulate sbcByte (loadByte (.abs addr) s) s)

/-- 0xFD `SBC addr,X` (41_arithmetic R102, 30_encoding R71). -/
def execSbcAbsx (addr : Addr) (s : State) : Result :=
  .next (accumulate sbcByte (loadByte (.absx addr) s) s)

/-- 0xF9 `SBC addr,Y` (41_arithmetic R102, 30_encoding R72). -/
def execSbcAbsy (addr : Addr) (s : State) : Result :=
  .next (accumulate sbcByte (loadByte (.absy addr) s) s)

/-- 0xE1 `SBC (z,X)` (41_arithmetic R102, 30_encoding R74). -/
def execSbcIndx (z : Byte) (s : State) : Result :=
  .next (accumulate sbcByte (loadByte (.indx z) s) s)

/-- 0xF1 `SBC (z),Y` (41_arithmetic R102, 30_encoding R75). -/
def execSbcIndy (z : Byte) (s : State) : Result :=
  .next (accumulate sbcByte (loadByte (.indy z) s) s)

/-- 0xC9 `CMP #v` (41_arithmetic R103, 30_encoding R64). -/
def execCmpImm (v : Byte) (s : State) : Result :=
  .next (test (compareByte s.a) (immediate v s) s)

/-- 0xC5 `CMP z` (41_arithmetic R103, 30_encoding R67). -/
def execCmpZp (z : Byte) (s : State) : Result :=
  .next (test (compareByte s.a) (loadByte (.zp z) s) s)

/-- 0xD5 `CMP z,X` (41_arithmetic R103, 30_encoding R68). -/
def execCmpZpx (z : Byte) (s : State) : Result :=
  .next (test (compareByte s.a) (loadByte (.zpx z) s) s)

/-- 0xCD `CMP addr` (41_arithmetic R103, 30_encoding R70). -/
def execCmpAbs (addr : Addr) (s : State) : Result :=
  .next (test (compareByte s.a) (loadByte (.abs addr) s) s)

/-- 0xDD `CMP addr,X` (41_arithmetic R103, 30_encoding R71). -/
def execCmpAbsx (addr : Addr) (s : State) : Result :=
  .next (test (compareByte s.a) (loadByte (.absx addr) s) s)

/-- 0xD9 `CMP addr,Y` (41_arithmetic R103, 30_encoding R72). -/
def execCmpAbsy (addr : Addr) (s : State) : Result :=
  .next (test (compareByte s.a) (loadByte (.absy addr) s) s)

/-- 0xC1 `CMP (z,X)` (41_arithmetic R103, 30_encoding R74). -/
def execCmpIndx (z : Byte) (s : State) : Result :=
  .next (test (compareByte s.a) (loadByte (.indx z) s) s)

/-- 0xD1 `CMP (z),Y` (41_arithmetic R103, 30_encoding R75). -/
def execCmpIndy (z : Byte) (s : State) : Result :=
  .next (test (compareByte s.a) (loadByte (.indy z) s) s)

/-- 0xE0 `CPX #v` (41_arithmetic R104, 30_encoding R64). -/
def execCpxImm (v : Byte) (s : State) : Result :=
  .next (test (compareByte s.x) (immediate v s) s)

/-- 0xE4 `CPX z` (41_arithmetic R104, 30_encoding R67). -/
def execCpxZp (z : Byte) (s : State) : Result :=
  .next (test (compareByte s.x) (loadByte (.zp z) s) s)

/-- 0xEC `CPX addr` (41_arithmetic R104, 30_encoding R70). -/
def execCpxAbs (addr : Addr) (s : State) : Result :=
  .next (test (compareByte s.x) (loadByte (.abs addr) s) s)

/-- 0xC0 `CPY #v` (41_arithmetic R105, 30_encoding R64). -/
def execCpyImm (v : Byte) (s : State) : Result :=
  .next (test (compareByte s.y) (immediate v s) s)

/-- 0xC4 `CPY z` (41_arithmetic R105, 30_encoding R67). -/
def execCpyZp (z : Byte) (s : State) : Result :=
  .next (test (compareByte s.y) (loadByte (.zp z) s) s)

/-- 0xCC `CPY addr` (41_arithmetic R105, 30_encoding R70). -/
def execCpyAbs (addr : Addr) (s : State) : Result :=
  .next (test (compareByte s.y) (loadByte (.abs addr) s) s)

/-- 0xE6 `INC z` (41_arithmetic R106, 30_encoding R67). -/
def execIncZp (z : Byte) (s : State) : Result :=
  .next (modifyByte incByte (.zp z) s)

/-- 0xF6 `INC z,X` (41_arithmetic R106, 30_encoding R68). -/
def execIncZpx (z : Byte) (s : State) : Result :=
  .next (modifyByte incByte (.zpx z) s)

/-- 0xEE `INC addr` (41_arithmetic R106, 30_encoding R70). -/
def execIncAbs (addr : Addr) (s : State) : Result :=
  .next (modifyByte incByte (.abs addr) s)

/-- 0xFE `INC addr,X` (41_arithmetic R106, 30_encoding R71). -/
def execIncAbsx (addr : Addr) (s : State) : Result :=
  .next (modifyByte incByte (.absx addr) s)

/-- 0xC6 `DEC z` (41_arithmetic R107, 30_encoding R67). -/
def execDecZp (z : Byte) (s : State) : Result :=
  .next (modifyByte decByte (.zp z) s)

/-- 0xD6 `DEC z,X` (41_arithmetic R107, 30_encoding R68). -/
def execDecZpx (z : Byte) (s : State) : Result :=
  .next (modifyByte decByte (.zpx z) s)

/-- 0xCE `DEC addr` (41_arithmetic R107, 30_encoding R70). -/
def execDecAbs (addr : Addr) (s : State) : Result :=
  .next (modifyByte decByte (.abs addr) s)

/-- 0xDE `DEC addr,X` (41_arithmetic R107, 30_encoding R71). -/
def execDecAbsx (addr : Addr) (s : State) : Result :=
  .next (modifyByte decByte (.absx addr) s)

/-- 0xE8 `INX` (41_arithmetic R108, 30_encoding R66). -/
def execInx (s : State) : Result :=
  .next (setX (incByte s.x s.p) s)

/-- 0xC8 `INY` (41_arithmetic R109, 30_encoding R66). -/
def execIny (s : State) : Result :=
  .next (setY (incByte s.y s.p) s)

/-- 0xCA `DEX` (41_arithmetic R110, 30_encoding R66). -/
def execDex (s : State) : Result :=
  .next (setX (decByte s.x s.p) s)

/-- 0x88 `DEY` (41_arithmetic R111, 30_encoding R66). -/
def execDey (s : State) : Result :=
  .next (setY (decByte s.y s.p) s)

end Sys2Proof.Machine
end

