-- ==== Sys2Proof/Machine/Control.lean ====
section
/-!
DEFINITION. The meanings of branches, jumps, subroutine call and return (45_control_flow R210 to R222).
On entry PC is the address of the byte after the instruction (10_state R22).
-/

namespace Sys2Proof.Machine

/-- 0x10 `BPL off` (45_control_flow R211, 30_encoding R76). -/
def execBpl (off : Byte) (s : State) : Result :=
  .next (branchIf (!(s.flag .negative)) off s)

/-- 0x30 `BMI off` (45_control_flow R212, 30_encoding R76). -/
def execBmi (off : Byte) (s : State) : Result :=
  .next (branchIf (s.flag .negative) off s)

/-- 0x50 `BVC off` (45_control_flow R213, 30_encoding R76). -/
def execBvc (off : Byte) (s : State) : Result :=
  .next (branchIf (!(s.flag .overflow)) off s)

/-- 0x70 `BVS off` (45_control_flow R214, 30_encoding R76). -/
def execBvs (off : Byte) (s : State) : Result :=
  .next (branchIf (s.flag .overflow) off s)

/-- 0x90 `BCC off` (45_control_flow R215, 30_encoding R76). -/
def execBcc (off : Byte) (s : State) : Result :=
  .next (branchIf (!(s.flag .carry)) off s)

/-- 0xB0 `BCS off` (45_control_flow R216, 30_encoding R76). -/
def execBcs (off : Byte) (s : State) : Result :=
  .next (branchIf (s.flag .carry) off s)

/-- 0xD0 `BNE off` (45_control_flow R217, 30_encoding R76). -/
def execBne (off : Byte) (s : State) : Result :=
  .next (branchIf (!(s.flag .zero)) off s)

/-- 0xF0 `BEQ off` (45_control_flow R218, 30_encoding R76). -/
def execBeq (off : Byte) (s : State) : Result :=
  .next (branchIf (s.flag .zero) off s)

/-- 0x4C `JMP addr` (45_control_flow R219, 30_encoding R70). -/
def execJmpAbs (addr : Addr) (s : State) : Result :=
  .next { s with pc := addr }

/-- 0x6C `JMP (ptr)` (45_control_flow R219, 30_encoding R73). -/
def execJmpInd (ptr : Addr) (s : State) : Result :=
  .next { s with pc := (indirectTarget ptr s).1, bus := (indirectTarget ptr s).2 }

/-- 0x20 `JSR addr` (45_control_flow R220, 30_encoding R70). -/
def execJsr (addr : Addr) (s : State) : Result :=
  .next { pushWord (s.pc - 1) s with pc := addr }

/-- 0x60 `RTS` (45_control_flow R221, 30_encoding R66). -/
def execRts (s : State) : Result :=
  .next { (pullWord s).2 with pc := (pullWord s).1 + 1 }

end Sys2Proof.Machine
end

