-- ==== Sys2Proof/Machine/FlagOps.lean ====
section
/-!
DEFINITION. The meanings of the flag set and clear instructions (44_flag_ops R190 to R196).
On entry PC is the address of the byte after the instruction (10_state R22).
-/

namespace Sys2Proof.Machine

/-- 0x18 `CLC` (44_flag_ops R190, 30_encoding R66). -/
def execClc (s : State) : Result :=
  .next (s.withFlag .carry false)

/-- 0x38 `SEC` (44_flag_ops R191, 30_encoding R66). -/
def execSec (s : State) : Result :=
  .next (s.withFlag .carry true)

/-- 0x58 `CLI` (44_flag_ops R192, 30_encoding R66). -/
def execCli (s : State) : Result :=
  .next (s.withFlag .interruptDisable false)

/-- 0x78 `SEI` (44_flag_ops R193, 30_encoding R66). -/
def execSei (s : State) : Result :=
  .next (s.withFlag .interruptDisable true)

/-- 0xD8 `CLD` (44_flag_ops R194, 30_encoding R66). -/
def execCld (s : State) : Result :=
  .next (s.withFlag .decimal false)

/-- 0xF8 `SED` (44_flag_ops R195, 30_encoding R66). -/
def execSed (s : State) : Result :=
  .next (s.withFlag .decimal true)

/-- 0xB8 `CLV` (44_flag_ops R196, 30_encoding R66). -/
def execClv (s : State) : Result :=
  .next (s.withFlag .overflow false)

end Sys2Proof.Machine
end

