-- ==== Sys2Proof/Machine/Logic.lean ====
section
/-!
DEFINITION. The meanings of AND, ORA, EOR, BIT and the shifts and rotates (42_logical_shift R130 to R137).
On entry PC is the address of the byte after the instruction (10_state R22).
-/

namespace Sys2Proof.Machine

/-- 0x29 `AND #v` (42_logical_shift R130, 30_encoding R64). -/
def execAndImm (v : Byte) (s : State) : Result :=
  .next (accumulate andByte (immediate v s) s)

/-- 0x25 `AND z` (42_logical_shift R130, 30_encoding R67). -/
def execAndZp (z : Byte) (s : State) : Result :=
  .next (accumulate andByte (loadByte (.zp z) s) s)

/-- 0x35 `AND z,X` (42_logical_shift R130, 30_encoding R68). -/
def execAndZpx (z : Byte) (s : State) : Result :=
  .next (accumulate andByte (loadByte (.zpx z) s) s)

/-- 0x2D `AND addr` (42_logical_shift R130, 30_encoding R70). -/
def execAndAbs (addr : Addr) (s : State) : Result :=
  .next (accumulate andByte (loadByte (.abs addr) s) s)

/-- 0x3D `AND addr,X` (42_logical_shift R130, 30_encoding R71). -/
def execAndAbsx (addr : Addr) (s : State) : Result :=
  .next (accumulate andByte (loadByte (.absx addr) s) s)

/-- 0x39 `AND addr,Y` (42_logical_shift R130, 30_encoding R72). -/
def execAndAbsy (addr : Addr) (s : State) : Result :=
  .next (accumulate andByte (loadByte (.absy addr) s) s)

/-- 0x21 `AND (z,X)` (42_logical_shift R130, 30_encoding R74). -/
def execAndIndx (z : Byte) (s : State) : Result :=
  .next (accumulate andByte (loadByte (.indx z) s) s)

/-- 0x31 `AND (z),Y` (42_logical_shift R130, 30_encoding R75). -/
def execAndIndy (z : Byte) (s : State) : Result :=
  .next (accumulate andByte (loadByte (.indy z) s) s)

/-- 0x09 `ORA #v` (42_logical_shift R131, 30_encoding R64). -/
def execOraImm (v : Byte) (s : State) : Result :=
  .next (accumulate oraByte (immediate v s) s)

/-- 0x05 `ORA z` (42_logical_shift R131, 30_encoding R67). -/
def execOraZp (z : Byte) (s : State) : Result :=
  .next (accumulate oraByte (loadByte (.zp z) s) s)

/-- 0x15 `ORA z,X` (42_logical_shift R131, 30_encoding R68). -/
def execOraZpx (z : Byte) (s : State) : Result :=
  .next (accumulate oraByte (loadByte (.zpx z) s) s)

/-- 0x0D `ORA addr` (42_logical_shift R131, 30_encoding R70). -/
def execOraAbs (addr : Addr) (s : State) : Result :=
  .next (accumulate oraByte (loadByte (.abs addr) s) s)

/-- 0x1D `ORA addr,X` (42_logical_shift R131, 30_encoding R71). -/
def execOraAbsx (addr : Addr) (s : State) : Result :=
  .next (accumulate oraByte (loadByte (.absx addr) s) s)

/-- 0x19 `ORA addr,Y` (42_logical_shift R131, 30_encoding R72). -/
def execOraAbsy (addr : Addr) (s : State) : Result :=
  .next (accumulate oraByte (loadByte (.absy addr) s) s)

/-- 0x01 `ORA (z,X)` (42_logical_shift R131, 30_encoding R74). -/
def execOraIndx (z : Byte) (s : State) : Result :=
  .next (accumulate oraByte (loadByte (.indx z) s) s)

/-- 0x11 `ORA (z),Y` (42_logical_shift R131, 30_encoding R75). -/
def execOraIndy (z : Byte) (s : State) : Result :=
  .next (accumulate oraByte (loadByte (.indy z) s) s)

/-- 0x49 `EOR #v` (42_logical_shift R132, 30_encoding R64). -/
def execEorImm (v : Byte) (s : State) : Result :=
  .next (accumulate eorByte (immediate v s) s)

/-- 0x45 `EOR z` (42_logical_shift R132, 30_encoding R67). -/
def execEorZp (z : Byte) (s : State) : Result :=
  .next (accumulate eorByte (loadByte (.zp z) s) s)

/-- 0x55 `EOR z,X` (42_logical_shift R132, 30_encoding R68). -/
def execEorZpx (z : Byte) (s : State) : Result :=
  .next (accumulate eorByte (loadByte (.zpx z) s) s)

/-- 0x4D `EOR addr` (42_logical_shift R132, 30_encoding R70). -/
def execEorAbs (addr : Addr) (s : State) : Result :=
  .next (accumulate eorByte (loadByte (.abs addr) s) s)

/-- 0x5D `EOR addr,X` (42_logical_shift R132, 30_encoding R71). -/
def execEorAbsx (addr : Addr) (s : State) : Result :=
  .next (accumulate eorByte (loadByte (.absx addr) s) s)

/-- 0x59 `EOR addr,Y` (42_logical_shift R132, 30_encoding R72). -/
def execEorAbsy (addr : Addr) (s : State) : Result :=
  .next (accumulate eorByte (loadByte (.absy addr) s) s)

/-- 0x41 `EOR (z,X)` (42_logical_shift R132, 30_encoding R74). -/
def execEorIndx (z : Byte) (s : State) : Result :=
  .next (accumulate eorByte (loadByte (.indx z) s) s)

/-- 0x51 `EOR (z),Y` (42_logical_shift R132, 30_encoding R75). -/
def execEorIndy (z : Byte) (s : State) : Result :=
  .next (accumulate eorByte (loadByte (.indy z) s) s)

/-- 0x24 `BIT z` (42_logical_shift R133, 30_encoding R67). -/
def execBitZp (z : Byte) (s : State) : Result :=
  .next (test (bitTestByte s.a) (loadByte (.zp z) s) s)

/-- 0x2C `BIT addr` (42_logical_shift R133, 30_encoding R70). -/
def execBitAbs (addr : Addr) (s : State) : Result :=
  .next (test (bitTestByte s.a) (loadByte (.abs addr) s) s)

/-- 0x0A `ASL A` (42_logical_shift R134, 30_encoding R65). -/
def execAslAcc (s : State) : Result :=
  .next (modifyA aslByte s)

/-- 0x06 `ASL z` (42_logical_shift R134, 30_encoding R67). -/
def execAslZp (z : Byte) (s : State) : Result :=
  .next (modifyByte aslByte (.zp z) s)

/-- 0x16 `ASL z,X` (42_logical_shift R134, 30_encoding R68). -/
def execAslZpx (z : Byte) (s : State) : Result :=
  .next (modifyByte aslByte (.zpx z) s)

/-- 0x0E `ASL addr` (42_logical_shift R134, 30_encoding R70). -/
def execAslAbs (addr : Addr) (s : State) : Result :=
  .next (modifyByte aslByte (.abs addr) s)

/-- 0x1E `ASL addr,X` (42_logical_shift R134, 30_encoding R71). -/
def execAslAbsx (addr : Addr) (s : State) : Result :=
  .next (modifyByte aslByte (.absx addr) s)

/-- 0x4A `LSR A` (42_logical_shift R135, 30_encoding R65). -/
def execLsrAcc (s : State) : Result :=
  .next (modifyA lsrByte s)

/-- 0x46 `LSR z` (42_logical_shift R135, 30_encoding R67). -/
def execLsrZp (z : Byte) (s : State) : Result :=
  .next (modifyByte lsrByte (.zp z) s)

/-- 0x56 `LSR z,X` (42_logical_shift R135, 30_encoding R68). -/
def execLsrZpx (z : Byte) (s : State) : Result :=
  .next (modifyByte lsrByte (.zpx z) s)

/-- 0x4E `LSR addr` (42_logical_shift R135, 30_encoding R70). -/
def execLsrAbs (addr : Addr) (s : State) : Result :=
  .next (modifyByte lsrByte (.abs addr) s)

/-- 0x5E `LSR addr,X` (42_logical_shift R135, 30_encoding R71). -/
def execLsrAbsx (addr : Addr) (s : State) : Result :=
  .next (modifyByte lsrByte (.absx addr) s)

/-- 0x2A `ROL A` (42_logical_shift R136, 30_encoding R65). -/
def execRolAcc (s : State) : Result :=
  .next (modifyA rolByte s)

/-- 0x26 `ROL z` (42_logical_shift R136, 30_encoding R67). -/
def execRolZp (z : Byte) (s : State) : Result :=
  .next (modifyByte rolByte (.zp z) s)

/-- 0x36 `ROL z,X` (42_logical_shift R136, 30_encoding R68). -/
def execRolZpx (z : Byte) (s : State) : Result :=
  .next (modifyByte rolByte (.zpx z) s)

/-- 0x2E `ROL addr` (42_logical_shift R136, 30_encoding R70). -/
def execRolAbs (addr : Addr) (s : State) : Result :=
  .next (modifyByte rolByte (.abs addr) s)

/-- 0x3E `ROL addr,X` (42_logical_shift R136, 30_encoding R71). -/
def execRolAbsx (addr : Addr) (s : State) : Result :=
  .next (modifyByte rolByte (.absx addr) s)

/-- 0x6A `ROR A` (42_logical_shift R137, 30_encoding R65). -/
def execRorAcc (s : State) : Result :=
  .next (modifyA rorByte s)

/-- 0x66 `ROR z` (42_logical_shift R137, 30_encoding R67). -/
def execRorZp (z : Byte) (s : State) : Result :=
  .next (modifyByte rorByte (.zp z) s)

/-- 0x76 `ROR z,X` (42_logical_shift R137, 30_encoding R68). -/
def execRorZpx (z : Byte) (s : State) : Result :=
  .next (modifyByte rorByte (.zpx z) s)

/-- 0x6E `ROR addr` (42_logical_shift R137, 30_encoding R70). -/
def execRorAbs (addr : Addr) (s : State) : Result :=
  .next (modifyByte rorByte (.abs addr) s)

/-- 0x7E `ROR addr,X` (42_logical_shift R137, 30_encoding R71). -/
def execRorAbsx (addr : Addr) (s : State) : Result :=
  .next (modifyByte rorByte (.absx addr) s)

end Sys2Proof.Machine
end

