-- ==== Sys2Proof/Machine/Move.lean ====
section
/-!
DEFINITION. The meanings of loads, stores and register transfers (43_data_movement R160 to R171).
On entry PC is the address of the byte after the instruction (10_state R22).
-/

namespace Sys2Proof.Machine

/-- `A <- v; SetNZ(v)` with an operand byte (43_data_movement R160). -/
def loadA (v : Byte × Bus) (s : State) : State := { setA (v.1, setNZ v.1 s.p) s with bus := v.2 }

/-- `X <- v; SetNZ(v)` with an operand byte (43_data_movement R161). -/
def loadX (v : Byte × Bus) (s : State) : State := { setX (v.1, setNZ v.1 s.p) s with bus := v.2 }

/-- `Y <- v; SetNZ(v)` with an operand byte (43_data_movement R162). -/
def loadY (v : Byte × Bus) (s : State) : State := { setY (v.1, setNZ v.1 s.p) s with bus := v.2 }

/-- 0xA9 `LDA #v` (43_data_movement R160, 30_encoding R64). -/
def execLdaImm (v : Byte) (s : State) : Result :=
  .next (loadA (immediate v s) s)

/-- 0xA5 `LDA z` (43_data_movement R160, 30_encoding R67). -/
def execLdaZp (z : Byte) (s : State) : Result :=
  .next (loadA (loadByte (.zp z) s) s)

/-- 0xB5 `LDA z,X` (43_data_movement R160, 30_encoding R68). -/
def execLdaZpx (z : Byte) (s : State) : Result :=
  .next (loadA (loadByte (.zpx z) s) s)

/-- 0xAD `LDA addr` (43_data_movement R160, 30_encoding R70). -/
def execLdaAbs (addr : Addr) (s : State) : Result :=
  .next (loadA (loadByte (.abs addr) s) s)

/-- 0xBD `LDA addr,X` (43_data_movement R160, 30_encoding R71). -/
def execLdaAbsx (addr : Addr) (s : State) : Result :=
  .next (loadA (loadByte (.absx addr) s) s)

/-- 0xB9 `LDA addr,Y` (43_data_movement R160, 30_encoding R72). -/
def execLdaAbsy (addr : Addr) (s : State) : Result :=
  .next (loadA (loadByte (.absy addr) s) s)

/-- 0xA1 `LDA (z,X)` (43_data_movement R160, 30_encoding R74). -/
def execLdaIndx (z : Byte) (s : State) : Result :=
  .next (loadA (loadByte (.indx z) s) s)

/-- 0xB1 `LDA (z),Y` (43_data_movement R160, 30_encoding R75). -/
def execLdaIndy (z : Byte) (s : State) : Result :=
  .next (loadA (loadByte (.indy z) s) s)

/-- 0xA2 `LDX #v` (43_data_movement R161, 30_encoding R64). -/
def execLdxImm (v : Byte) (s : State) : Result :=
  .next (loadX (immediate v s) s)

/-- 0xA6 `LDX z` (43_data_movement R161, 30_encoding R67). -/
def execLdxZp (z : Byte) (s : State) : Result :=
  .next (loadX (loadByte (.zp z) s) s)

/-- 0xB6 `LDX z,Y` (43_data_movement R161, 30_encoding R69). -/
def execLdxZpy (z : Byte) (s : State) : Result :=
  .next (loadX (loadByte (.zpy z) s) s)

/-- 0xAE `LDX addr` (43_data_movement R161, 30_encoding R70). -/
def execLdxAbs (addr : Addr) (s : State) : Result :=
  .next (loadX (loadByte (.abs addr) s) s)

/-- 0xBE `LDX addr,Y` (43_data_movement R161, 30_encoding R72). -/
def execLdxAbsy (addr : Addr) (s : State) : Result :=
  .next (loadX (loadByte (.absy addr) s) s)

/-- 0xA0 `LDY #v` (43_data_movement R162, 30_encoding R64). -/
def execLdyImm (v : Byte) (s : State) : Result :=
  .next (loadY (immediate v s) s)

/-- 0xA4 `LDY z` (43_data_movement R162, 30_encoding R67). -/
def execLdyZp (z : Byte) (s : State) : Result :=
  .next (loadY (loadByte (.zp z) s) s)

/-- 0xB4 `LDY z,X` (43_data_movement R162, 30_encoding R68). -/
def execLdyZpx (z : Byte) (s : State) : Result :=
  .next (loadY (loadByte (.zpx z) s) s)

/-- 0xAC `LDY addr` (43_data_movement R162, 30_encoding R70). -/
def execLdyAbs (addr : Addr) (s : State) : Result :=
  .next (loadY (loadByte (.abs addr) s) s)

/-- 0xBC `LDY addr,X` (43_data_movement R162, 30_encoding R71). -/
def execLdyAbsx (addr : Addr) (s : State) : Result :=
  .next (loadY (loadByte (.absx addr) s) s)

/-- 0x85 `STA z` (43_data_movement R163, 30_encoding R67). -/
def execStaZp (z : Byte) (s : State) : Result :=
  .next (storeByte (.zp z) s.a s)

/-- 0x95 `STA z,X` (43_data_movement R163, 30_encoding R68). -/
def execStaZpx (z : Byte) (s : State) : Result :=
  .next (storeByte (.zpx z) s.a s)

/-- 0x8D `STA addr` (43_data_movement R163, 30_encoding R70). -/
def execStaAbs (addr : Addr) (s : State) : Result :=
  .next (storeByte (.abs addr) s.a s)

/-- 0x9D `STA addr,X` (43_data_movement R163, 30_encoding R71). -/
def execStaAbsx (addr : Addr) (s : State) : Result :=
  .next (storeByte (.absx addr) s.a s)

/-- 0x99 `STA addr,Y` (43_data_movement R163, 30_encoding R72). -/
def execStaAbsy (addr : Addr) (s : State) : Result :=
  .next (storeByte (.absy addr) s.a s)

/-- 0x81 `STA (z,X)` (43_data_movement R163, 30_encoding R74). -/
def execStaIndx (z : Byte) (s : State) : Result :=
  .next (storeByte (.indx z) s.a s)

/-- 0x91 `STA (z),Y` (43_data_movement R163, 30_encoding R75). -/
def execStaIndy (z : Byte) (s : State) : Result :=
  .next (storeByte (.indy z) s.a s)

/-- 0x86 `STX z` (43_data_movement R164, 30_encoding R67). -/
def execStxZp (z : Byte) (s : State) : Result :=
  .next (storeByte (.zp z) s.x s)

/-- 0x96 `STX z,Y` (43_data_movement R164, 30_encoding R69). -/
def execStxZpy (z : Byte) (s : State) : Result :=
  .next (storeByte (.zpy z) s.x s)

/-- 0x8E `STX addr` (43_data_movement R164, 30_encoding R70). -/
def execStxAbs (addr : Addr) (s : State) : Result :=
  .next (storeByte (.abs addr) s.x s)

/-- 0x84 `STY z` (43_data_movement R165, 30_encoding R67). -/
def execStyZp (z : Byte) (s : State) : Result :=
  .next (storeByte (.zp z) s.y s)

/-- 0x94 `STY z,X` (43_data_movement R165, 30_encoding R68). -/
def execStyZpx (z : Byte) (s : State) : Result :=
  .next (storeByte (.zpx z) s.y s)

/-- 0x8C `STY addr` (43_data_movement R165, 30_encoding R70). -/
def execStyAbs (addr : Addr) (s : State) : Result :=
  .next (storeByte (.abs addr) s.y s)

/-- 0xAA `TAX` (43_data_movement R166, 30_encoding R66). -/
def execTax (s : State) : Result :=
  .next (setX (s.a, setNZ s.a s.p) s)

/-- 0xA8 `TAY` (43_data_movement R167, 30_encoding R66). -/
def execTay (s : State) : Result :=
  .next (setY (s.a, setNZ s.a s.p) s)

/-- 0x8A `TXA` (43_data_movement R168, 30_encoding R66). -/
def execTxa (s : State) : Result :=
  .next (setA (s.x, setNZ s.x s.p) s)

/-- 0x98 `TYA` (43_data_movement R169, 30_encoding R66). -/
def execTya (s : State) : Result :=
  .next (setA (s.y, setNZ s.y s.p) s)

/-- 0xBA `TSX` (43_data_movement R170, 30_encoding R66). -/
def execTsx (s : State) : Result :=
  .next (setX (s.sp, setNZ s.sp s.p) s)

/-- 0x9A `TXS` (43_data_movement R171, 30_encoding R66). -/
def execTxs (s : State) : Result :=
  .next { s with sp := s.x }

end Sys2Proof.Machine
end

