-- ==== Sys2Proof/Machine/Stack.lean ====
section
/-!
DEFINITION. The meanings of push and pull, BRK, RTI, NOP and the unrecognised opcodes (46_stack_system R243 to R250).
On entry PC is the address of the byte after the instruction (10_state R22).
-/

namespace Sys2Proof.Machine

/-- 0x48 `PHA` (46_stack_system R243, 30_encoding R66). -/
def execPha (s : State) : Result :=
  .next (push s.a s)

/-- 0x68 `PLA` (46_stack_system R244, 30_encoding R66). -/
def execPla (s : State) : Result :=
  .next (setA ((pull s).1, setNZ (pull s).1 s.p) (pull s).2)

/-- 0x08 `PHP` (46_stack_system R245, 30_encoding R66). -/
def execPhp (s : State) : Result :=
  .next (push (pushedStatus s.p) s)

/-- 0x28 `PLP` (46_stack_system R246, 30_encoding R66). -/
def execPlp (s : State) : Result :=
  .next { (pull s).2 with p := statusFromPlp (pull s).1 }

/-- 0x00 `BRK` (46_stack_system R247, 30_encoding R66). -/
def execBrk (s : State) : Result :=
  .next (takeBreak s)

/-- 0x40 `RTI` (46_stack_system R248, 30_encoding R66). -/
def execRti (s : State) : Result :=
  .next (returnFromBreak s)

/-- 0xEA `NOP` (46_stack_system R249, 30_encoding R66). -/
def execNop (s : State) : Result :=
  .next s

/-- Any byte of 30_encoding R81: nothing beyond the opcode fetch (46_stack_system R250). -/
def execUnrecognised (_op : Byte) (s : State) : Result :=
  .next s

end Sys2Proof.Machine
end

