-- ==== Sys2Proof/Syntax.lean ====
section
/-!
DEFINITION. The instructions: one constructor for each recognised row of the opcode table (30_encoding R79), carrying the
row's operand bytes, and one for the 105 unrecognised rows, carrying the opcode byte (R81, R250; log 17). An operand of
two bytes is the 16-bit address they form. The opcode byte is in each docstring.
-/

namespace Sys2Proof

/-- An instruction of the opcode map (30_encoding R79). -/
inductive Instr where
  /-- 0x69: `ADC #v` -/
  | adcImm (v : Byte)
  /-- 0x65: `ADC z` -/
  | adcZp (z : Byte)
  /-- 0x75: `ADC z,X` -/
  | adcZpx (z : Byte)
  /-- 0x6D: `ADC addr` -/
  | adcAbs (addr : Addr)
  /-- 0x7D: `ADC addr,X` -/
  | adcAbsx (addr : Addr)
  /-- 0x79: `ADC addr,Y` -/
  | adcAbsy (addr : Addr)
  /-- 0x61: `ADC (z,X)` -/
  | adcIndx (z : Byte)
  /-- 0x71: `ADC (z),Y` -/
  | adcIndy (z : Byte)
  /-- 0xE9: `SBC #v` -/
  | sbcImm (v : Byte)
  /-- 0xE5: `SBC z` -/
  | sbcZp (z : Byte)
  /-- 0xF5: `SBC z,X` -/
  | sbcZpx (z : Byte)
  /-- 0xED: `SBC addr` -/
  | sbcAbs (addr : Addr)
  /-- 0xFD: `SBC addr,X` -/
  | sbcAbsx (addr : Addr)
  /-- 0xF9: `SBC addr,Y` -/
  | sbcAbsy (addr : Addr)
  /-- 0xE1: `SBC (z,X)` -/
  | sbcIndx (z : Byte)
  /-- 0xF1: `SBC (z),Y` -/
  | sbcIndy (z : Byte)
  /-- 0xC9: `CMP #v` -/
  | cmpImm (v : Byte)
  /-- 0xC5: `CMP z` -/
  | cmpZp (z : Byte)
  /-- 0xD5: `CMP z,X` -/
  | cmpZpx (z : Byte)
  /-- 0xCD: `CMP addr` -/
  | cmpAbs (addr : Addr)
  /-- 0xDD: `CMP addr,X` -/
  | cmpAbsx (addr : Addr)
  /-- 0xD9: `CMP addr,Y` -/
  | cmpAbsy (addr : Addr)
  /-- 0xC1: `CMP (z,X)` -/
  | cmpIndx (z : Byte)
  /-- 0xD1: `CMP (z),Y` -/
  | cmpIndy (z : Byte)
  /-- 0xE0: `CPX #v` -/
  | cpxImm (v : Byte)
  /-- 0xE4: `CPX z` -/
  | cpxZp (z : Byte)
  /-- 0xEC: `CPX addr` -/
  | cpxAbs (addr : Addr)
  /-- 0xC0: `CPY #v` -/
  | cpyImm (v : Byte)
  /-- 0xC4: `CPY z` -/
  | cpyZp (z : Byte)
  /-- 0xCC: `CPY addr` -/
  | cpyAbs (addr : Addr)
  /-- 0xE6: `INC z` -/
  | incZp (z : Byte)
  /-- 0xF6: `INC z,X` -/
  | incZpx (z : Byte)
  /-- 0xEE: `INC addr` -/
  | incAbs (addr : Addr)
  /-- 0xFE: `INC addr,X` -/
  | incAbsx (addr : Addr)
  /-- 0xC6: `DEC z` -/
  | decZp (z : Byte)
  /-- 0xD6: `DEC z,X` -/
  | decZpx (z : Byte)
  /-- 0xCE: `DEC addr` -/
  | decAbs (addr : Addr)
  /-- 0xDE: `DEC addr,X` -/
  | decAbsx (addr : Addr)
  /-- 0xE8: `INX` -/
  | inx
  /-- 0xC8: `INY` -/
  | iny
  /-- 0xCA: `DEX` -/
  | dex
  /-- 0x88: `DEY` -/
  | dey
  /-- 0x29: `AND #v` -/
  | andImm (v : Byte)
  /-- 0x25: `AND z` -/
  | andZp (z : Byte)
  /-- 0x35: `AND z,X` -/
  | andZpx (z : Byte)
  /-- 0x2D: `AND addr` -/
  | andAbs (addr : Addr)
  /-- 0x3D: `AND addr,X` -/
  | andAbsx (addr : Addr)
  /-- 0x39: `AND addr,Y` -/
  | andAbsy (addr : Addr)
  /-- 0x21: `AND (z,X)` -/
  | andIndx (z : Byte)
  /-- 0x31: `AND (z),Y` -/
  | andIndy (z : Byte)
  /-- 0x09: `ORA #v` -/
  | oraImm (v : Byte)
  /-- 0x05: `ORA z` -/
  | oraZp (z : Byte)
  /-- 0x15: `ORA z,X` -/
  | oraZpx (z : Byte)
  /-- 0x0D: `ORA addr` -/
  | oraAbs (addr : Addr)
  /-- 0x1D: `ORA addr,X` -/
  | oraAbsx (addr : Addr)
  /-- 0x19: `ORA addr,Y` -/
  | oraAbsy (addr : Addr)
  /-- 0x01: `ORA (z,X)` -/
  | oraIndx (z : Byte)
  /-- 0x11: `ORA (z),Y` -/
  | oraIndy (z : Byte)
  /-- 0x49: `EOR #v` -/
  | eorImm (v : Byte)
  /-- 0x45: `EOR z` -/
  | eorZp (z : Byte)
  /-- 0x55: `EOR z,X` -/
  | eorZpx (z : Byte)
  /-- 0x4D: `EOR addr` -/
  | eorAbs (addr : Addr)
  /-- 0x5D: `EOR addr,X` -/
  | eorAbsx (addr : Addr)
  /-- 0x59: `EOR addr,Y` -/
  | eorAbsy (addr : Addr)
  /-- 0x41: `EOR (z,X)` -/
  | eorIndx (z : Byte)
  /-- 0x51: `EOR (z),Y` -/
  | eorIndy (z : Byte)
  /-- 0x24: `BIT z` -/
  | bitZp (z : Byte)
  /-- 0x2C: `BIT addr` -/
  | bitAbs (addr : Addr)
  /-- 0x0A: `ASL A` -/
  | aslAcc
  /-- 0x06: `ASL z` -/
  | aslZp (z : Byte)
  /-- 0x16: `ASL z,X` -/
  | aslZpx (z : Byte)
  /-- 0x0E: `ASL addr` -/
  | aslAbs (addr : Addr)
  /-- 0x1E: `ASL addr,X` -/
  | aslAbsx (addr : Addr)
  /-- 0x4A: `LSR A` -/
  | lsrAcc
  /-- 0x46: `LSR z` -/
  | lsrZp (z : Byte)
  /-- 0x56: `LSR z,X` -/
  | lsrZpx (z : Byte)
  /-- 0x4E: `LSR addr` -/
  | lsrAbs (addr : Addr)
  /-- 0x5E: `LSR addr,X` -/
  | lsrAbsx (addr : Addr)
  /-- 0x2A: `ROL A` -/
  | rolAcc
  /-- 0x26: `ROL z` -/
  | rolZp (z : Byte)
  /-- 0x36: `ROL z,X` -/
  | rolZpx (z : Byte)
  /-- 0x2E: `ROL addr` -/
  | rolAbs (addr : Addr)
  /-- 0x3E: `ROL addr,X` -/
  | rolAbsx (addr : Addr)
  /-- 0x6A: `ROR A` -/
  | rorAcc
  /-- 0x66: `ROR z` -/
  | rorZp (z : Byte)
  /-- 0x76: `ROR z,X` -/
  | rorZpx (z : Byte)
  /-- 0x6E: `ROR addr` -/
  | rorAbs (addr : Addr)
  /-- 0x7E: `ROR addr,X` -/
  | rorAbsx (addr : Addr)
  /-- 0xA9: `LDA #v` -/
  | ldaImm (v : Byte)
  /-- 0xA5: `LDA z` -/
  | ldaZp (z : Byte)
  /-- 0xB5: `LDA z,X` -/
  | ldaZpx (z : Byte)
  /-- 0xAD: `LDA addr` -/
  | ldaAbs (addr : Addr)
  /-- 0xBD: `LDA addr,X` -/
  | ldaAbsx (addr : Addr)
  /-- 0xB9: `LDA addr,Y` -/
  | ldaAbsy (addr : Addr)
  /-- 0xA1: `LDA (z,X)` -/
  | ldaIndx (z : Byte)
  /-- 0xB1: `LDA (z),Y` -/
  | ldaIndy (z : Byte)
  /-- 0xA2: `LDX #v` -/
  | ldxImm (v : Byte)
  /-- 0xA6: `LDX z` -/
  | ldxZp (z : Byte)
  /-- 0xB6: `LDX z,Y` -/
  | ldxZpy (z : Byte)
  /-- 0xAE: `LDX addr` -/
  | ldxAbs (addr : Addr)
  /-- 0xBE: `LDX addr,Y` -/
  | ldxAbsy (addr : Addr)
  /-- 0xA0: `LDY #v` -/
  | ldyImm (v : Byte)
  /-- 0xA4: `LDY z` -/
  | ldyZp (z : Byte)
  /-- 0xB4: `LDY z,X` -/
  | ldyZpx (z : Byte)
  /-- 0xAC: `LDY addr` -/
  | ldyAbs (addr : Addr)
  /-- 0xBC: `LDY addr,X` -/
  | ldyAbsx (addr : Addr)
  /-- 0x85: `STA z` -/
  | staZp (z : Byte)
  /-- 0x95: `STA z,X` -/
  | staZpx (z : Byte)
  /-- 0x8D: `STA addr` -/
  | staAbs (addr : Addr)
  /-- 0x9D: `STA addr,X` -/
  | staAbsx (addr : Addr)
  /-- 0x99: `STA addr,Y` -/
  | staAbsy (addr : Addr)
  /-- 0x81: `STA (z,X)` -/
  | staIndx (z : Byte)
  /-- 0x91: `STA (z),Y` -/
  | staIndy (z : Byte)
  /-- 0x86: `STX z` -/
  | stxZp (z : Byte)
  /-- 0x96: `STX z,Y` -/
  | stxZpy (z : Byte)
  /-- 0x8E: `STX addr` -/
  | stxAbs (addr : Addr)
  /-- 0x84: `STY z` -/
  | styZp (z : Byte)
  /-- 0x94: `STY z,X` -/
  | styZpx (z : Byte)
  /-- 0x8C: `STY addr` -/
  | styAbs (addr : Addr)
  /-- 0xAA: `TAX` -/
  | tax
  /-- 0xA8: `TAY` -/
  | tay
  /-- 0x8A: `TXA` -/
  | txa
  /-- 0x98: `TYA` -/
  | tya
  /-- 0xBA: `TSX` -/
  | tsx
  /-- 0x9A: `TXS` -/
  | txs
  /-- 0x18: `CLC` -/
  | clc
  /-- 0x38: `SEC` -/
  | sec
  /-- 0x58: `CLI` -/
  | cli
  /-- 0x78: `SEI` -/
  | sei
  /-- 0xD8: `CLD` -/
  | cld
  /-- 0xF8: `SED` -/
  | sed
  /-- 0xB8: `CLV` -/
  | clv
  /-- 0x10: `BPL off` -/
  | bpl (off : Byte)
  /-- 0x30: `BMI off` -/
  | bmi (off : Byte)
  /-- 0x50: `BVC off` -/
  | bvc (off : Byte)
  /-- 0x70: `BVS off` -/
  | bvs (off : Byte)
  /-- 0x90: `BCC off` -/
  | bcc (off : Byte)
  /-- 0xB0: `BCS off` -/
  | bcs (off : Byte)
  /-- 0xD0: `BNE off` -/
  | bne (off : Byte)
  /-- 0xF0: `BEQ off` -/
  | beq (off : Byte)
  /-- 0x4C: `JMP addr` -/
  | jmpAbs (addr : Addr)
  /-- 0x6C: `JMP (ptr)` -/
  | jmpInd (ptr : Addr)
  /-- 0x20: `JSR addr` -/
  | jsr (addr : Addr)
  /-- 0x60: `RTS` -/
  | rts
  /-- 0x48: `PHA` -/
  | pha
  /-- 0x68: `PLA` -/
  | pla
  /-- 0x08: `PHP` -/
  | php
  /-- 0x28: `PLP` -/
  | plp
  /-- 0x00: `BRK` -/
  | brk
  /-- 0x40: `RTI` -/
  | rti
  /-- 0xEA: `NOP` -/
  | nop
  /-- any byte of R81: a one-byte no-op -/
  | unrecognised (op : Byte)
  deriving DecidableEq, Repr

end Sys2Proof
end

