-- ==== Sys2Proof/Decode.lean ====
section
/-!
DEFINITION. Decoding, total on any bytes: the opcode byte alone selects the instruction, its mode and its length
(30_encoding R62, R63). Then the encoder, written from the opcode list of R79, not from the decoder.
-/

namespace Sys2Proof

/-- What an opcode byte says of the bytes that follow it (30_encoding R61): an instruction that is complete, one that
takes an operand byte, or one that takes a 16-bit operand, low byte first. -/
inductive Format where
  | complete (i : Instr)
  | byteOperand (i : Byte → Instr)
  | wordOperand (i : Addr → Instr)

/-- The opcode map (30_encoding R79); a byte without a mnemonic is unrecognised (R81). -/
def formatOf (op : Byte) : Format :=
  match op.toNat with
  | 0x00 => .complete .brk
  | 0x01 => .byteOperand .oraIndx
  | 0x05 => .byteOperand .oraZp
  | 0x06 => .byteOperand .aslZp
  | 0x08 => .complete .php
  | 0x09 => .byteOperand .oraImm
  | 0x0A => .complete .aslAcc
  | 0x0D => .wordOperand .oraAbs
  | 0x0E => .wordOperand .aslAbs
  | 0x10 => .byteOperand .bpl
  | 0x11 => .byteOperand .oraIndy
  | 0x15 => .byteOperand .oraZpx
  | 0x16 => .byteOperand .aslZpx
  | 0x18 => .complete .clc
  | 0x19 => .wordOperand .oraAbsy
  | 0x1D => .wordOperand .oraAbsx
  | 0x1E => .wordOperand .aslAbsx
  | 0x20 => .wordOperand .jsr
  | 0x21 => .byteOperand .andIndx
  | 0x24 => .byteOperand .bitZp
  | 0x25 => .byteOperand .andZp
  | 0x26 => .byteOperand .rolZp
  | 0x28 => .complete .plp
  | 0x29 => .byteOperand .andImm
  | 0x2A => .complete .rolAcc
  | 0x2C => .wordOperand .bitAbs
  | 0x2D => .wordOperand .andAbs
  | 0x2E => .wordOperand .rolAbs
  | 0x30 => .byteOperand .bmi
  | 0x31 => .byteOperand .andIndy
  | 0x35 => .byteOperand .andZpx
  | 0x36 => .byteOperand .rolZpx
  | 0x38 => .complete .sec
  | 0x39 => .wordOperand .andAbsy
  | 0x3D => .wordOperand .andAbsx
  | 0x3E => .wordOperand .rolAbsx
  | 0x40 => .complete .rti
  | 0x41 => .byteOperand .eorIndx
  | 0x45 => .byteOperand .eorZp
  | 0x46 => .byteOperand .lsrZp
  | 0x48 => .complete .pha
  | 0x49 => .byteOperand .eorImm
  | 0x4A => .complete .lsrAcc
  | 0x4C => .wordOperand .jmpAbs
  | 0x4D => .wordOperand .eorAbs
  | 0x4E => .wordOperand .lsrAbs
  | 0x50 => .byteOperand .bvc
  | 0x51 => .byteOperand .eorIndy
  | 0x55 => .byteOperand .eorZpx
  | 0x56 => .byteOperand .lsrZpx
  | 0x58 => .complete .cli
  | 0x59 => .wordOperand .eorAbsy
  | 0x5D => .wordOperand .eorAbsx
  | 0x5E => .wordOperand .lsrAbsx
  | 0x60 => .complete .rts
  | 0x61 => .byteOperand .adcIndx
  | 0x65 => .byteOperand .adcZp
  | 0x66 => .byteOperand .rorZp
  | 0x68 => .complete .pla
  | 0x69 => .byteOperand .adcImm
  | 0x6A => .complete .rorAcc
  | 0x6C => .wordOperand .jmpInd
  | 0x6D => .wordOperand .adcAbs
  | 0x6E => .wordOperand .rorAbs
  | 0x70 => .byteOperand .bvs
  | 0x71 => .byteOperand .adcIndy
  | 0x75 => .byteOperand .adcZpx
  | 0x76 => .byteOperand .rorZpx
  | 0x78 => .complete .sei
  | 0x79 => .wordOperand .adcAbsy
  | 0x7D => .wordOperand .adcAbsx
  | 0x7E => .wordOperand .rorAbsx
  | 0x81 => .byteOperand .staIndx
  | 0x84 => .byteOperand .styZp
  | 0x85 => .byteOperand .staZp
  | 0x86 => .byteOperand .stxZp
  | 0x88 => .complete .dey
  | 0x8A => .complete .txa
  | 0x8C => .wordOperand .styAbs
  | 0x8D => .wordOperand .staAbs
  | 0x8E => .wordOperand .stxAbs
  | 0x90 => .byteOperand .bcc
  | 0x91 => .byteOperand .staIndy
  | 0x94 => .byteOperand .styZpx
  | 0x95 => .byteOperand .staZpx
  | 0x96 => .byteOperand .stxZpy
  | 0x98 => .complete .tya
  | 0x99 => .wordOperand .staAbsy
  | 0x9A => .complete .txs
  | 0x9D => .wordOperand .staAbsx
  | 0xA0 => .byteOperand .ldyImm
  | 0xA1 => .byteOperand .ldaIndx
  | 0xA2 => .byteOperand .ldxImm
  | 0xA4 => .byteOperand .ldyZp
  | 0xA5 => .byteOperand .ldaZp
  | 0xA6 => .byteOperand .ldxZp
  | 0xA8 => .complete .tay
  | 0xA9 => .byteOperand .ldaImm
  | 0xAA => .complete .tax
  | 0xAC => .wordOperand .ldyAbs
  | 0xAD => .wordOperand .ldaAbs
  | 0xAE => .wordOperand .ldxAbs
  | 0xB0 => .byteOperand .bcs
  | 0xB1 => .byteOperand .ldaIndy
  | 0xB4 => .byteOperand .ldyZpx
  | 0xB5 => .byteOperand .ldaZpx
  | 0xB6 => .byteOperand .ldxZpy
  | 0xB8 => .complete .clv
  | 0xB9 => .wordOperand .ldaAbsy
  | 0xBA => .complete .tsx
  | 0xBC => .wordOperand .ldyAbsx
  | 0xBD => .wordOperand .ldaAbsx
  | 0xBE => .wordOperand .ldxAbsy
  | 0xC0 => .byteOperand .cpyImm
  | 0xC1 => .byteOperand .cmpIndx
  | 0xC4 => .byteOperand .cpyZp
  | 0xC5 => .byteOperand .cmpZp
  | 0xC6 => .byteOperand .decZp
  | 0xC8 => .complete .iny
  | 0xC9 => .byteOperand .cmpImm
  | 0xCA => .complete .dex
  | 0xCC => .wordOperand .cpyAbs
  | 0xCD => .wordOperand .cmpAbs
  | 0xCE => .wordOperand .decAbs
  | 0xD0 => .byteOperand .bne
  | 0xD1 => .byteOperand .cmpIndy
  | 0xD5 => .byteOperand .cmpZpx
  | 0xD6 => .byteOperand .decZpx
  | 0xD8 => .complete .cld
  | 0xD9 => .wordOperand .cmpAbsy
  | 0xDD => .wordOperand .cmpAbsx
  | 0xDE => .wordOperand .decAbsx
  | 0xE0 => .byteOperand .cpxImm
  | 0xE1 => .byteOperand .sbcIndx
  | 0xE4 => .byteOperand .cpxZp
  | 0xE5 => .byteOperand .sbcZp
  | 0xE6 => .byteOperand .incZp
  | 0xE8 => .complete .inx
  | 0xE9 => .byteOperand .sbcImm
  | 0xEA => .complete .nop
  | 0xEC => .wordOperand .cpxAbs
  | 0xED => .wordOperand .sbcAbs
  | 0xEE => .wordOperand .incAbs
  | 0xF0 => .byteOperand .beq
  | 0xF1 => .byteOperand .sbcIndy
  | 0xF5 => .byteOperand .sbcZpx
  | 0xF6 => .byteOperand .incZpx
  | 0xF8 => .complete .sed
  | 0xF9 => .wordOperand .sbcAbsy
  | 0xFD => .wordOperand .sbcAbsx
  | 0xFE => .wordOperand .incAbsx
  | _ => .complete (.unrecognised op)

/-- The length in bytes that an opcode byte selects (30_encoding R62). -/
def instrLength (op : Byte) : Nat :=
  match formatOf op with
  | .complete _ => 1
  | .byteOperand _ => 2
  | .wordOperand _ => 3

/-- Why a list of bytes does not begin with an instruction. -/
inductive DecodeError where
  /-- there is no byte at all -/
  | noOpcode
  /-- the opcode byte's operand bytes are not all there -/
  | missingOperand (op : Byte)
  deriving DecidableEq, Repr

/-- The instruction at the head of a list of bytes, and the bytes after it. -/
def decode : List Byte → Except DecodeError (Instr × List Byte)
  | [] => .error .noOpcode
  | op :: rest =>
    match formatOf op, rest with
    | .complete i, _ => .ok (i, rest)
    | .byteOperand i, b :: rest' => .ok (i b, rest')
    | .wordOperand i, lo :: hi :: rest' => .ok (i (word16 hi lo), rest')
    | .byteOperand _, [] => .error (.missingOperand op)
    | .wordOperand _, _ => .error (.missingOperand op)

/-- The instruction the decoder reads from a table word: bit 0 is the least significant bit of the first byte, the
second byte is bits 15..8, and every bit from `nbits` on is 0. The longest instruction is three bytes (R62). -/
def decodeTableWord (nbits w : Nat) : Option Instr :=
  match decode [byteOf (w % 2 ^ nbits) 0, byteOf (w % 2 ^ nbits) 1, byteOf (w % 2 ^ nbits) 2] with
  | .ok (i, _) => some i
  | .error _ => none

/-- The bytes of an instruction, in address order (30_encoding R61, R79). -/
def encode : Instr → List Byte
  | .adcImm v => [0x69, v]
  | .adcZp z => [0x65, z]
  | .adcZpx z => [0x75, z]
  | .adcAbs addr => [0x6D, loByte addr, hiByte addr]
  | .adcAbsx addr => [0x7D, loByte addr, hiByte addr]
  | .adcAbsy addr => [0x79, loByte addr, hiByte addr]
  | .adcIndx z => [0x61, z]
  | .adcIndy z => [0x71, z]
  | .sbcImm v => [0xE9, v]
  | .sbcZp z => [0xE5, z]
  | .sbcZpx z => [0xF5, z]
  | .sbcAbs addr => [0xED, loByte addr, hiByte addr]
  | .sbcAbsx addr => [0xFD, loByte addr, hiByte addr]
  | .sbcAbsy addr => [0xF9, loByte addr, hiByte addr]
  | .sbcIndx z => [0xE1, z]
  | .sbcIndy z => [0xF1, z]
  | .cmpImm v => [0xC9, v]
  | .cmpZp z => [0xC5, z]
  | .cmpZpx z => [0xD5, z]
  | .cmpAbs addr => [0xCD, loByte addr, hiByte addr]
  | .cmpAbsx addr => [0xDD, loByte addr, hiByte addr]
  | .cmpAbsy addr => [0xD9, loByte addr, hiByte addr]
  | .cmpIndx z => [0xC1, z]
  | .cmpIndy z => [0xD1, z]
  | .cpxImm v => [0xE0, v]
  | .cpxZp z => [0xE4, z]
  | .cpxAbs addr => [0xEC, loByte addr, hiByte addr]
  | .cpyImm v => [0xC0, v]
  | .cpyZp z => [0xC4, z]
  | .cpyAbs addr => [0xCC, loByte addr, hiByte addr]
  | .incZp z => [0xE6, z]
  | .incZpx z => [0xF6, z]
  | .incAbs addr => [0xEE, loByte addr, hiByte addr]
  | .incAbsx addr => [0xFE, loByte addr, hiByte addr]
  | .decZp z => [0xC6, z]
  | .decZpx z => [0xD6, z]
  | .decAbs addr => [0xCE, loByte addr, hiByte addr]
  | .decAbsx addr => [0xDE, loByte addr, hiByte addr]
  | .inx => [0xE8]
  | .iny => [0xC8]
  | .dex => [0xCA]
  | .dey => [0x88]
  | .andImm v => [0x29, v]
  | .andZp z => [0x25, z]
  | .andZpx z => [0x35, z]
  | .andAbs addr => [0x2D, loByte addr, hiByte addr]
  | .andAbsx addr => [0x3D, loByte addr, hiByte addr]
  | .andAbsy addr => [0x39, loByte addr, hiByte addr]
  | .andIndx z => [0x21, z]
  | .andIndy z => [0x31, z]
  | .oraImm v => [0x09, v]
  | .oraZp z => [0x05, z]
  | .oraZpx z => [0x15, z]
  | .oraAbs addr => [0x0D, loByte addr, hiByte addr]
  | .oraAbsx addr => [0x1D, loByte addr, hiByte addr]
  | .oraAbsy addr => [0x19, loByte addr, hiByte addr]
  | .oraIndx z => [0x01, z]
  | .oraIndy z => [0x11, z]
  | .eorImm v => [0x49, v]
  | .eorZp z => [0x45, z]
  | .eorZpx z => [0x55, z]
  | .eorAbs addr => [0x4D, loByte addr, hiByte addr]
  | .eorAbsx addr => [0x5D, loByte addr, hiByte addr]
  | .eorAbsy addr => [0x59, loByte addr, hiByte addr]
  | .eorIndx z => [0x41, z]
  | .eorIndy z => [0x51, z]
  | .bitZp z => [0x24, z]
  | .bitAbs addr => [0x2C, loByte addr, hiByte addr]
  | .aslAcc => [0x0A]
  | .aslZp z => [0x06, z]
  | .aslZpx z => [0x16, z]
  | .aslAbs addr => [0x0E, loByte addr, hiByte addr]
  | .aslAbsx addr => [0x1E, loByte addr, hiByte addr]
  | .lsrAcc => [0x4A]
  | .lsrZp z => [0x46, z]
  | .lsrZpx z => [0x56, z]
  | .lsrAbs addr => [0x4E, loByte addr, hiByte addr]
  | .lsrAbsx addr => [0x5E, loByte addr, hiByte addr]
  | .rolAcc => [0x2A]
  | .rolZp z => [0x26, z]
  | .rolZpx z => [0x36, z]
  | .rolAbs addr => [0x2E, loByte addr, hiByte addr]
  | .rolAbsx addr => [0x3E, loByte addr, hiByte addr]
  | .rorAcc => [0x6A]
  | .rorZp z => [0x66, z]
  | .rorZpx z => [0x76, z]
  | .rorAbs addr => [0x6E, loByte addr, hiByte addr]
  | .rorAbsx addr => [0x7E, loByte addr, hiByte addr]
  | .ldaImm v => [0xA9, v]
  | .ldaZp z => [0xA5, z]
  | .ldaZpx z => [0xB5, z]
  | .ldaAbs addr => [0xAD, loByte addr, hiByte addr]
  | .ldaAbsx addr => [0xBD, loByte addr, hiByte addr]
  | .ldaAbsy addr => [0xB9, loByte addr, hiByte addr]
  | .ldaIndx z => [0xA1, z]
  | .ldaIndy z => [0xB1, z]
  | .ldxImm v => [0xA2, v]
  | .ldxZp z => [0xA6, z]
  | .ldxZpy z => [0xB6, z]
  | .ldxAbs addr => [0xAE, loByte addr, hiByte addr]
  | .ldxAbsy addr => [0xBE, loByte addr, hiByte addr]
  | .ldyImm v => [0xA0, v]
  | .ldyZp z => [0xA4, z]
  | .ldyZpx z => [0xB4, z]
  | .ldyAbs addr => [0xAC, loByte addr, hiByte addr]
  | .ldyAbsx addr => [0xBC, loByte addr, hiByte addr]
  | .staZp z => [0x85, z]
  | .staZpx z => [0x95, z]
  | .staAbs addr => [0x8D, loByte addr, hiByte addr]
  | .staAbsx addr => [0x9D, loByte addr, hiByte addr]
  | .staAbsy addr => [0x99, loByte addr, hiByte addr]
  | .staIndx z => [0x81, z]
  | .staIndy z => [0x91, z]
  | .stxZp z => [0x86, z]
  | .stxZpy z => [0x96, z]
  | .stxAbs addr => [0x8E, loByte addr, hiByte addr]
  | .styZp z => [0x84, z]
  | .styZpx z => [0x94, z]
  | .styAbs addr => [0x8C, loByte addr, hiByte addr]
  | .tax => [0xAA]
  | .tay => [0xA8]
  | .txa => [0x8A]
  | .tya => [0x98]
  | .tsx => [0xBA]
  | .txs => [0x9A]
  | .clc => [0x18]
  | .sec => [0x38]
  | .cli => [0x58]
  | .sei => [0x78]
  | .cld => [0xD8]
  | .sed => [0xF8]
  | .clv => [0xB8]
  | .bpl off => [0x10, off]
  | .bmi off => [0x30, off]
  | .bvc off => [0x50, off]
  | .bvs off => [0x70, off]
  | .bcc off => [0x90, off]
  | .bcs off => [0xB0, off]
  | .bne off => [0xD0, off]
  | .beq off => [0xF0, off]
  | .jmpAbs addr => [0x4C, loByte addr, hiByte addr]
  | .jmpInd ptr => [0x6C, loByte ptr, hiByte ptr]
  | .jsr addr => [0x20, loByte addr, hiByte addr]
  | .rts => [0x60]
  | .pha => [0x48]
  | .pla => [0x68]
  | .php => [0x08]
  | .plp => [0x28]
  | .brk => [0x00]
  | .rti => [0x40]
  | .nop => [0xEA]
  | .unrecognised op => [op]

end Sys2Proof
end

