-- ==== Sys2Proof/Machine/Fetch.lean ====
section
/-!
DEFINITION. Fetching an instruction's bytes (00_scope R12, R15, 20_memory R58), and placing bytes where the next fetch
finds them.
-/

namespace Sys2Proof.Machine

/-- The operand bytes that a format asks for, each by `Fetch8()`, in increasing address order. -/
def fetchOperand : Format → State → Instr × State
  | .complete i, s => (i, s)
  | .byteOperand i, s => (i (fetch8 s).1, (fetch8 s).2)
  | .wordOperand i, s =>
    (i (word16 (fetch8 (fetch8 s).2).1 (fetch8 s).1), (fetch8 (fetch8 s).2).2)

/-- The opcode byte and then every operand byte; PC is left at the byte after the instruction (10_state R22). -/
def fetchInstr (s : State) : Instr × State := fetchOperand (formatOf (fetch8 s).1) (fetch8 s).2

/-- A number of bytes in a row, each by `Fetch8()`. -/
def fetchBytes : Nat → State → List Byte × State
  | 0, s => ([], s)
  | n + 1, s => ((fetch8 s).1 :: (fetchBytes n (fetch8 s).2).1, (fetchBytes n (fetch8 s).2).2)

/-- The device with one byte put into the memory it is, a write-ignoring memory too; `none` for any other device. -/
def Device.place : Device → Addr → Byte → Option Device
  | .ram n m, o, v => some (.ram n (Memory.write m o.toNat v))
  | .rom n m, o, v => some (.rom n (Memory.write m o.toNat v))
  | .external _ _ _, _, _ => none

/-- The bus with one byte put into the memory that serves the address; `none` where no memory serves it. -/
def Bus.place? : Bus → Addr → Byte → Option Bus
  | [], _, _ => none
  | b :: rest, addr, v =>
    if b.contains addr then
      (b.device.place (addr - b.first) v).map fun d => { b with device := d } :: rest
    else (Bus.place? rest addr v).map fun r => b :: r

/-- The bus on which the address holds the byte: put into the memory that serves it, or, where no memory serves it, into
a one-byte RAM bound to that address ahead of the other bindings. -/
def Bus.place (bus : Bus) (addr : Addr) (v : Byte) : Bus :=
  match Bus.place? bus addr v with
  | some bus' => bus'
  | none => { first := addr, last := addr, device := .ram 1 (Memory.write [] 0 v) } :: bus

end Sys2Proof.Machine
end

