-- ==== Sys2Proof/Machine/Step.lean ====
section
/-!
DEFINITION. One step (00_scope R15): fetch, decode, execute, refused before the first reset (70_reset_and_hazards R303)
and on a bus configuration that fails the check of 20_memory R45.
-/

namespace Sys2Proof.Machine

/-- One fetch-decode-execute cycle (00_scope R15). -/
def step (s : State) : Host.Outcome State Fault Refusal :=
  if s.resetDone = false then .refused .beforeReset
  else if s.bus.fits = false then .refused .busConfiguration
  else exec (fetchInstr s).1 (fetchInstr s).2

/-- The state in which the instruction of the low `nbits` bits of `w` (byte 0 the least significant; three bytes, zero
above `nbits`) stands at PC, and the machine has been reset, so that the next step runs it (log 15). -/
def State.withFetchWord (s : State) (nbits w : Nat) : State :=
  { s with
    bus := ((s.bus.place s.pc (byteOf (w % 2 ^ nbits) 0)).place (s.pc + 1) (byteOf (w % 2 ^ nbits) 1)).place
      (s.pc + 2) (byteOf (w % 2 ^ nbits) 2)
    resetDone := true }

end Sys2Proof.Machine
end

