-- ==== Sys2Proof/Machine/OpcodeTable.lean ====
section
/-!
DEFINITION. The columns of the opcode list (30_encoding R79) beside the opcode byte: mnemonic, operand with its mode,
access class, and base cycle count (informative, 70_reset_and_hazards R330).
-/

namespace Sys2Proof.Machine

/-- The 56 mnemonics, and the 105 bytes that have none. -/
inductive Mnemonic where
  | ADC | SBC | CMP | CPX | CPY | INC | DEC | INX | INY | DEX | DEY
  | AND | ORA | EOR | BIT | ASL | LSR | ROL | ROR
  | LDA | LDX | LDY | STA | STX | STY | TAX | TAY | TXA | TYA | TSX | TXS
  | CLC | SEC | CLI | SEI | CLD | SED | CLV
  | BPL | BMI | BVC | BVS | BCC | BCS | BNE | BEQ | JMP | JSR | RTS
  | PHA | PLA | PHP | PLP | BRK | RTI | NOP
  | unrecognised
  deriving DecidableEq, Repr

/-- The 13 addressing modes (30_encoding R61). -/
inductive Mode where
  | imp | acc | imm | zp | zpx | zpy | abs | absx | absy | ind | indx | indy | rel
  deriving DecidableEq, Repr

/-- The operand of an instruction, with its operand bytes. -/
inductive Operand where
  | implied
  | accumulator
  | immediate (v : Byte)
  | memory (m : MemOperand)
  | indirect (ptr : Addr)
  | relative (off : Byte)
  deriving DecidableEq, Repr

/-- The mode of a memory operand. -/
def MemOperand.mode : MemOperand → Mode
  | .zp _ => .zp
  | .zpx _ => .zpx
  | .zpy _ => .zpy
  | .abs _ => .abs
  | .absx _ => .absx
  | .absy _ => .absy
  | .indx _ => .indx
  | .indy _ => .indy

/-- The mode column. -/
def Operand.mode : Operand → Mode
  | .implied => .imp
  | .accumulator => .acc
  | .immediate _ => .imm
  | .memory m => m.mode
  | .indirect _ => .ind
  | .relative _ => .rel

/-- The access classes (30_encoding R78). -/
inductive AccessClass where
  | read | write | modify | jump | branch | implied
  deriving DecidableEq, Repr

/-- The access class of a mnemonic (30_encoding R78). -/
def Mnemonic.accessClass : Mnemonic → AccessClass
  | .ADC | .SBC | .CMP | .CPX | .CPY | .AND | .ORA | .EOR | .BIT | .LDA | .LDX | .LDY => .read
  | .INC | .DEC | .ASL | .LSR | .ROL | .ROR => .modify
  | .INX | .INY | .DEX | .DEY | .TAX | .TAY | .TXA | .TYA | .TSX | .TXS | .CLC | .SEC | .CLI | .SEI | .CLD | .SED | .CLV | .RTS | .PHA | .PLA | .PHP | .PLP | .BRK | .RTI | .NOP | .unrecognised => .implied
  | .STA | .STX | .STY => .write
  | .BPL | .BMI | .BVC | .BVS | .BCC | .BCS | .BNE | .BEQ => .branch
  | .JMP | .JSR => .jump

end Sys2Proof.Machine

namespace Sys2Proof

open Sys2Proof.Machine

/-- The mnemonic column of 30_encoding R79. -/
def Instr.mnemonic : Instr → Mnemonic
  | .adcImm _ => .ADC
  | .adcZp _ => .ADC
  | .adcZpx _ => .ADC
  | .adcAbs _ => .ADC
  | .adcAbsx _ => .ADC
  | .adcAbsy _ => .ADC
  | .adcIndx _ => .ADC
  | .adcIndy _ => .ADC
  | .sbcImm _ => .SBC
  | .sbcZp _ => .SBC
  | .sbcZpx _ => .SBC
  | .sbcAbs _ => .SBC
  | .sbcAbsx _ => .SBC
  | .sbcAbsy _ => .SBC
  | .sbcIndx _ => .SBC
  | .sbcIndy _ => .SBC
  | .cmpImm _ => .CMP
  | .cmpZp _ => .CMP
  | .cmpZpx _ => .CMP
  | .cmpAbs _ => .CMP
  | .cmpAbsx _ => .CMP
  | .cmpAbsy _ => .CMP
  | .cmpIndx _ => .CMP
  | .cmpIndy _ => .CMP
  | .cpxImm _ => .CPX
  | .cpxZp _ => .CPX
  | .cpxAbs _ => .CPX
  | .cpyImm _ => .CPY
  | .cpyZp _ => .CPY
  | .cpyAbs _ => .CPY
  | .incZp _ => .INC
  | .incZpx _ => .INC
  | .incAbs _ => .INC
  | .incAbsx _ => .INC
  | .decZp _ => .DEC
  | .decZpx _ => .DEC
  | .decAbs _ => .DEC
  | .decAbsx _ => .DEC
  | .inx => .INX
  | .iny => .INY
  | .dex => .DEX
  | .dey => .DEY
  | .andImm _ => .AND
  | .andZp _ => .AND
  | .andZpx _ => .AND
  | .andAbs _ => .AND
  | .andAbsx _ => .AND
  | .andAbsy _ => .AND
  | .andIndx _ => .AND
  | .andIndy _ => .AND
  | .oraImm _ => .ORA
  | .oraZp _ => .ORA
  | .oraZpx _ => .ORA
  | .oraAbs _ => .ORA
  | .oraAbsx _ => .ORA
  | .oraAbsy _ => .ORA
  | .oraIndx _ => .ORA
  | .oraIndy _ => .ORA
  | .eorImm _ => .EOR
  | .eorZp _ => .EOR
  | .eorZpx _ => .EOR
  | .eorAbs _ => .EOR
  | .eorAbsx _ => .EOR
  | .eorAbsy _ => .EOR
  | .eorIndx _ => .EOR
  | .eorIndy _ => .EOR
  | .bitZp _ => .BIT
  | .bitAbs _ => .BIT
  | .aslAcc => .ASL
  | .aslZp _ => .ASL
  | .aslZpx _ => .ASL
  | .aslAbs _ => .ASL
  | .aslAbsx _ => .ASL
  | .lsrAcc => .LSR
  | .lsrZp _ => .LSR
  | .lsrZpx _ => .LSR
  | .lsrAbs _ => .LSR
  | .lsrAbsx _ => .LSR
  | .rolAcc => .ROL
  | .rolZp _ => .ROL
  | .rolZpx _ => .ROL
  | .rolAbs _ => .ROL
  | .rolAbsx _ => .ROL
  | .rorAcc => .ROR
  | .rorZp _ => .ROR
  | .rorZpx _ => .ROR
  | .rorAbs _ => .ROR
  | .rorAbsx _ => .ROR
  | .ldaImm _ => .LDA
  | .ldaZp _ => .LDA
  | .ldaZpx _ => .LDA
  | .ldaAbs _ => .LDA
  | .ldaAbsx _ => .LDA
  | .ldaAbsy _ => .LDA
  | .ldaIndx _ => .LDA
  | .ldaIndy _ => .LDA
  | .ldxImm _ => .LDX
  | .ldxZp _ => .LDX
  | .ldxZpy _ => .LDX
  | .ldxAbs _ => .LDX
  | .ldxAbsy _ => .LDX
  | .ldyImm _ => .LDY
  | .ldyZp _ => .LDY
  | .ldyZpx _ => .LDY
  | .ldyAbs _ => .LDY
  | .ldyAbsx _ => .LDY
  | .staZp _ => .STA
  | .staZpx _ => .STA
  | .staAbs _ => .STA
  | .staAbsx _ => .STA
  | .staAbsy _ => .STA
  | .staIndx _ => .STA
  | .staIndy _ => .STA
  | .stxZp _ => .STX
  | .stxZpy _ => .STX
  | .stxAbs _ => .STX
  | .styZp _ => .STY
  | .styZpx _ => .STY
  | .styAbs _ => .STY
  | .tax => .TAX
  | .tay => .TAY
  | .txa => .TXA
  | .tya => .TYA
  | .tsx => .TSX
  | .txs => .TXS
  | .clc => .CLC
  | .sec => .SEC
  | .cli => .CLI
  | .sei => .SEI
  | .cld => .CLD
  | .sed => .SED
  | .clv => .CLV
  | .bpl _ => .BPL
  | .bmi _ => .BMI
  | .bvc _ => .BVC
  | .bvs _ => .BVS
  | .bcc _ => .BCC
  | .bcs _ => .BCS
  | .bne _ => .BNE
  | .beq _ => .BEQ
  | .jmpAbs _ => .JMP
  | .jmpInd _ => .JMP
  | .jsr _ => .JSR
  | .rts => .RTS
  | .pha => .PHA
  | .pla => .PLA
  | .php => .PHP
  | .plp => .PLP
  | .brk => .BRK
  | .rti => .RTI
  | .nop => .NOP
  | .unrecognised _ => .unrecognised

/-- The mode column of 30_encoding R79, with the operand. JSR's absolute address is a jump target, not a byte of memory. -/
def Instr.operand : Instr → Operand
  | .adcImm v => .immediate v
  | .adcZp z => .memory (.zp z)
  | .adcZpx z => .memory (.zpx z)
  | .adcAbs addr => .memory (.abs addr)
  | .adcAbsx addr => .memory (.absx addr)
  | .adcAbsy addr => .memory (.absy addr)
  | .adcIndx z => .memory (.indx z)
  | .adcIndy z => .memory (.indy z)
  | .sbcImm v => .immediate v
  | .sbcZp z => .memory (.zp z)
  | .sbcZpx z => .memory (.zpx z)
  | .sbcAbs addr => .memory (.abs addr)
  | .sbcAbsx addr => .memory (.absx addr)
  | .sbcAbsy addr => .memory (.absy addr)
  | .sbcIndx z => .memory (.indx z)
  | .sbcIndy z => .memory (.indy z)
  | .cmpImm v => .immediate v
  | .cmpZp z => .memory (.zp z)
  | .cmpZpx z => .memory (.zpx z)
  | .cmpAbs addr => .memory (.abs addr)
  | .cmpAbsx addr => .memory (.absx addr)
  | .cmpAbsy addr => .memory (.absy addr)
  | .cmpIndx z => .memory (.indx z)
  | .cmpIndy z => .memory (.indy z)
  | .cpxImm v => .immediate v
  | .cpxZp z => .memory (.zp z)
  | .cpxAbs addr => .memory (.abs addr)
  | .cpyImm v => .immediate v
  | .cpyZp z => .memory (.zp z)
  | .cpyAbs addr => .memory (.abs addr)
  | .incZp z => .memory (.zp z)
  | .incZpx z => .memory (.zpx z)
  | .incAbs addr => .memory (.abs addr)
  | .incAbsx addr => .memory (.absx addr)
  | .decZp z => .memory (.zp z)
  | .decZpx z => .memory (.zpx z)
  | .decAbs addr => .memory (.abs addr)
  | .decAbsx addr => .memory (.absx addr)
  | .inx => .implied
  | .iny => .implied
  | .dex => .implied
  | .dey => .implied
  | .andImm v => .immediate v
  | .andZp z => .memory (.zp z)
  | .andZpx z => .memory (.zpx z)
  | .andAbs addr => .memory (.abs addr)
  | .andAbsx addr => .memory (.absx addr)
  | .andAbsy addr => .memory (.absy addr)
  | .andIndx z => .memory (.indx z)
  | .andIndy z => .memory (.indy z)
  | .oraImm v => .immediate v
  | .oraZp z => .memory (.zp z)
  | .oraZpx z => .memory (.zpx z)
  | .oraAbs addr => .memory (.abs addr)
  | .oraAbsx addr => .memory (.absx addr)
  | .oraAbsy addr => .memory (.absy addr)
  | .oraIndx z => .memory (.indx z)
  | .oraIndy z => .memory (.indy z)
  | .eorImm v => .immediate v
  | .eorZp z => .memory (.zp z)
  | .eorZpx z => .memory (.zpx z)
  | .eorAbs addr => .memory (.abs addr)
  | .eorAbsx addr => .memory (.absx addr)
  | .eorAbsy addr => .memory (.absy addr)
  | .eorIndx z => .memory (.indx z)
  | .eorIndy z => .memory (.indy z)
  | .bitZp z => .memory (.zp z)
  | .bitAbs addr => .memory (.abs addr)
  | .aslAcc => .accumulator
  | .aslZp z => .memory (.zp z)
  | .aslZpx z => .memory (.zpx z)
  | .aslAbs addr => .memory (.abs addr)
  | .aslAbsx addr => .memory (.absx addr)
  | .lsrAcc => .accumulator
  | .lsrZp z => .memory (.zp z)
  | .lsrZpx z => .memory (.zpx z)
  | .lsrAbs addr => .memory (.abs addr)
  | .lsrAbsx addr => .memory (.absx addr)
  | .rolAcc => .accumulator
  | .rolZp z => .memory (.zp z)
  | .rolZpx z => .memory (.zpx z)
  | .rolAbs addr => .memory (.abs addr)
  | .rolAbsx addr => .memory (.absx addr)
  | .rorAcc => .accumulator
  | .rorZp z => .memory (.zp z)
  | .rorZpx z => .memory (.zpx z)
  | .rorAbs addr => .memory (.abs addr)
  | .rorAbsx addr => .memory (.absx addr)
  | .ldaImm v => .immediate v
  | .ldaZp z => .memory (.zp z)
  | .ldaZpx z => .memory (.zpx z)
  | .ldaAbs addr => .memory (.abs addr)
  | .ldaAbsx addr => .memory (.absx addr)
  | .ldaAbsy addr => .memory (.absy addr)
  | .ldaIndx z => .memory (.indx z)
  | .ldaIndy z => .memory (.indy z)
  | .ldxImm v => .immediate v
  | .ldxZp z => .memory (.zp z)
  | .ldxZpy z => .memory (.zpy z)
  | .ldxAbs addr => .memory (.abs addr)
  | .ldxAbsy addr => .memory (.absy addr)
  | .ldyImm v => .immediate v
  | .ldyZp z => .memory (.zp z)
  | .ldyZpx z => .memory (.zpx z)
  | .ldyAbs addr => .memory (.abs addr)
  | .ldyAbsx addr => .memory (.absx addr)
  | .staZp z => .memory (.zp z)
  | .staZpx z => .memory (.zpx z)
  | .staAbs addr => .memory (.abs addr)
  | .staAbsx addr => .memory (.absx addr)
  | .staAbsy addr => .memory (.absy addr)
  | .staIndx z => .memory (.indx z)
  | .staIndy z => .memory (.indy z)
  | .stxZp z => .memory (.zp z)
  | .stxZpy z => .memory (.zpy z)
  | .stxAbs addr => .memory (.abs addr)
  | .styZp z => .memory (.zp z)
  | .styZpx z => .memory (.zpx z)
  | .styAbs addr => .memory (.abs addr)
  | .tax => .implied
  | .tay => .implied
  | .txa => .implied
  | .tya => .implied
  | .tsx => .implied
  | .txs => .implied
  | .clc => .implied
  | .sec => .implied
  | .cli => .implied
  | .sei => .implied
  | .cld => .implied
  | .sed => .implied
  | .clv => .implied
  | .bpl off => .relative off
  | .bmi off => .relative off
  | .bvc off => .relative off
  | .bvs off => .relative off
  | .bcc off => .relative off
  | .bcs off => .relative off
  | .bne off => .relative off
  | .beq off => .relative off
  | .jmpAbs addr => .memory (.abs addr)
  | .jmpInd ptr => .indirect ptr
  | .jsr addr => .memory (.abs addr)
  | .rts => .implied
  | .pha => .implied
  | .pla => .implied
  | .php => .implied
  | .plp => .implied
  | .brk => .implied
  | .rti => .implied
  | .nop => .implied
  | .unrecognised _ => .implied

/-- The mode of an instruction. -/
def Instr.mode (i : Instr) : Mode := i.operand.mode

/-- The base cycle count (70_reset_and_hazards R335, R336; informative). -/
def Instr.baseCycles : Instr → Nat
  | .adcImm _ => 2
  | .adcZp _ => 3
  | .adcZpx _ => 4
  | .adcAbs _ => 4
  | .adcAbsx _ => 4
  | .adcAbsy _ => 4
  | .adcIndx _ => 6
  | .adcIndy _ => 5
  | .sbcImm _ => 2
  | .sbcZp _ => 3
  | .sbcZpx _ => 4
  | .sbcAbs _ => 4
  | .sbcAbsx _ => 4
  | .sbcAbsy _ => 4
  | .sbcIndx _ => 6
  | .sbcIndy _ => 5
  | .cmpImm _ => 2
  | .cmpZp _ => 3
  | .cmpZpx _ => 4
  | .cmpAbs _ => 4
  | .cmpAbsx _ => 4
  | .cmpAbsy _ => 4
  | .cmpIndx _ => 6
  | .cmpIndy _ => 5
  | .cpxImm _ => 2
  | .cpxZp _ => 3
  | .cpxAbs _ => 4
  | .cpyImm _ => 2
  | .cpyZp _ => 3
  | .cpyAbs _ => 4
  | .incZp _ => 5
  | .incZpx _ => 6
  | .incAbs _ => 6
  | .incAbsx _ => 7
  | .decZp _ => 5
  | .decZpx _ => 6
  | .decAbs _ => 6
  | .decAbsx _ => 7
  | .inx => 2
  | .iny => 2
  | .dex => 2
  | .dey => 2
  | .andImm _ => 2
  | .andZp _ => 3
  | .andZpx _ => 4
  | .andAbs _ => 4
  | .andAbsx _ => 4
  | .andAbsy _ => 4
  | .andIndx _ => 6
  | .andIndy _ => 5
  | .oraImm _ => 2
  | .oraZp _ => 3
  | .oraZpx _ => 4
  | .oraAbs _ => 4
  | .oraAbsx _ => 4
  | .oraAbsy _ => 4
  | .oraIndx _ => 6
  | .oraIndy _ => 5
  | .eorImm _ => 2
  | .eorZp _ => 3
  | .eorZpx _ => 4
  | .eorAbs _ => 4
  | .eorAbsx _ => 4
  | .eorAbsy _ => 4
  | .eorIndx _ => 6
  | .eorIndy _ => 5
  | .bitZp _ => 3
  | .bitAbs _ => 4
  | .aslAcc => 2
  | .aslZp _ => 5
  | .aslZpx _ => 6
  | .aslAbs _ => 6
  | .aslAbsx _ => 7
  | .lsrAcc => 2
  | .lsrZp _ => 5
  | .lsrZpx _ => 6
  | .lsrAbs _ => 6
  | .lsrAbsx _ => 7
  | .rolAcc => 2
  | .rolZp _ => 5
  | .rolZpx _ => 6
  | .rolAbs _ => 6
  | .rolAbsx _ => 7
  | .rorAcc => 2
  | .rorZp _ => 5
  | .rorZpx _ => 6
  | .rorAbs _ => 6
  | .rorAbsx _ => 7
  | .ldaImm _ => 2
  | .ldaZp _ => 3
  | .ldaZpx _ => 4
  | .ldaAbs _ => 4
  | .ldaAbsx _ => 4
  | .ldaAbsy _ => 4
  | .ldaIndx _ => 6
  | .ldaIndy _ => 5
  | .ldxImm _ => 2
  | .ldxZp _ => 3
  | .ldxZpy _ => 4
  | .ldxAbs _ => 4
  | .ldxAbsy _ => 4
  | .ldyImm _ => 2
  | .ldyZp _ => 3
  | .ldyZpx _ => 4
  | .ldyAbs _ => 4
  | .ldyAbsx _ => 4
  | .staZp _ => 3
  | .staZpx _ => 4
  | .staAbs _ => 4
  | .staAbsx _ => 5
  | .staAbsy _ => 5
  | .staIndx _ => 6
  | .staIndy _ => 6
  | .stxZp _ => 3
  | .stxZpy _ => 4
  | .stxAbs _ => 4
  | .styZp _ => 3
  | .styZpx _ => 4
  | .styAbs _ => 4
  | .tax => 2
  | .tay => 2
  | .txa => 2
  | .tya => 2
  | .tsx => 2
  | .txs => 2
  | .clc => 2
  | .sec => 2
  | .cli => 2
  | .sei => 2
  | .cld => 2
  | .sed => 2
  | .clv => 2
  | .bpl _ => 2
  | .bmi _ => 2
  | .bvc _ => 2
  | .bvs _ => 2
  | .bcc _ => 2
  | .bcs _ => 2
  | .bne _ => 2
  | .beq _ => 2
  | .jmpAbs _ => 3
  | .jmpInd _ => 5
  | .jsr _ => 6
  | .rts => 6
  | .pha => 3
  | .pla => 4
  | .php => 3
  | .plp => 4
  | .brk => 7
  | .rti => 6
  | .nop => 1
  | .unrecognised _ => 1

end Sys2Proof
end

