-- ==== Sys2Proof/Machine/Listing.lean ====
section
/-!
DEFINITION. The assembler's line for an instruction, and the offset it encodes for a branch to a label (30_encoding R83,
R84). No step depends on either.
-/

namespace Sys2Proof.Machine

/-- One hexadecimal digit, capital letters above nine. -/
def hexDigit (n : Nat) : Char := if n < 10 then Char.ofNat (48 + n) else Char.ofNat (55 + n)

/-- `$nn`. -/
def hexByte (b : Byte) : String := String.ofList ['$', hexDigit (b.toNat / 16), hexDigit (b.toNat % 16)]

/-- `$nnnn`. -/
def hexAddr (a : Addr) : String :=
  String.ofList ['$', hexDigit (a.toNat / 4096), hexDigit (a.toNat / 256 % 16), hexDigit (a.toNat / 16 % 16),
    hexDigit (a.toNat % 16)]

/-- The mnemonic as it is written; `.byte` places the raw byte of an unrecognised opcode (R84). -/
def Mnemonic.text : Mnemonic → String
  | .ADC => "ADC"
  | .SBC => "SBC"
  | .CMP => "CMP"
  | .CPX => "CPX"
  | .CPY => "CPY"
  | .INC => "INC"
  | .DEC => "DEC"
  | .INX => "INX"
  | .INY => "INY"
  | .DEX => "DEX"
  | .DEY => "DEY"
  | .AND => "AND"
  | .ORA => "ORA"
  | .EOR => "EOR"
  | .BIT => "BIT"
  | .ASL => "ASL"
  | .LSR => "LSR"
  | .ROL => "ROL"
  | .ROR => "ROR"
  | .LDA => "LDA"
  | .LDX => "LDX"
  | .LDY => "LDY"
  | .STA => "STA"
  | .STX => "STX"
  | .STY => "STY"
  | .TAX => "TAX"
  | .TAY => "TAY"
  | .TXA => "TXA"
  | .TYA => "TYA"
  | .TSX => "TSX"
  | .TXS => "TXS"
  | .CLC => "CLC"
  | .SEC => "SEC"
  | .CLI => "CLI"
  | .SEI => "SEI"
  | .CLD => "CLD"
  | .SED => "SED"
  | .CLV => "CLV"
  | .BPL => "BPL"
  | .BMI => "BMI"
  | .BVC => "BVC"
  | .BVS => "BVS"
  | .BCC => "BCC"
  | .BCS => "BCS"
  | .BNE => "BNE"
  | .BEQ => "BEQ"
  | .JMP => "JMP"
  | .JSR => "JSR"
  | .RTS => "RTS"
  | .PHA => "PHA"
  | .PLA => "PLA"
  | .PHP => "PHP"
  | .PLP => "PLP"
  | .BRK => "BRK"
  | .RTI => "RTI"
  | .NOP => "NOP"
  | .unrecognised => ".byte"

/-- A memory operand in its mode's form. -/
def MemOperand.text : MemOperand → String
  | .zp z => hexByte z
  | .zpx z => hexByte z ++ ",X"
  | .zpy z => hexByte z ++ ",Y"
  | .abs addr => hexAddr addr
  | .absx addr => hexAddr addr ++ ",X"
  | .absy addr => hexAddr addr ++ ",Y"
  | .indx z => "(" ++ hexByte z ++ ",X)"
  | .indy z => "(" ++ hexByte z ++ "),Y"

/-- An operand in its mode's form; a relative operand is written as the address it reaches from the next instruction. -/
def Operand.text (next : Addr) : Operand → String
  | .implied => ""
  | .accumulator => " A"
  | .immediate v => " #" ++ hexByte v
  | .memory m => " " ++ m.text
  | .indirect ptr => " (" ++ hexAddr ptr ++ ")"
  | .relative off => " " ++ hexAddr (next + sext16 off)

end Sys2Proof.Machine

namespace Sys2Proof

open Sys2Proof.Machine

/-- The assembler's line for an instruction, given the address of the next one (R83, R84). -/
def Instr.listing (i : Instr) (next : Addr) : String :=
  match i with
  | .unrecognised op => ".byte " ++ hexByte op
  | _ => i.mnemonic.text ++ i.operand.text next

end Sys2Proof

namespace Sys2Proof.Machine

/-- The offset an assembler encodes for a branch at an address to a label, refused outside -128..=+127 of the next
instruction (R83). -/
def branchOffset (address label : Addr) : Option Byte :=
  if -128 ≤ (label.toNat : Int) - (address.toNat + 2) ∧ (label.toNat : Int) - (address.toNat + 2) ≤ 127 then
    some (BitVec.ofInt 8 ((label.toNat : Int) - (address.toNat + 2)))
  else none

end Sys2Proof.Machine
end

