-- ==== Sys2Proof/Machine/Timing.lean ====
section
/-!
DEFINITION. The cycle count a step returns (70_reset_and_hazards R330 to R336): informative, no part of State (10_state
R36; log 11), and what Execute counts down (R308).
-/

namespace Sys2Proof.Machine

/-- The condition of a branch mnemonic (45_control_flow R211 to R218); false for every other mnemonic. -/
def branchCondition (m : Mnemonic) (s : State) : Bool :=
  match m with
  | .BPL => !(s.flag .negative)
  | .BMI => s.flag .negative
  | .BVC => !(s.flag .overflow)
  | .BVS => s.flag .overflow
  | .BCC => !(s.flag .carry)
  | .BCS => s.flag .carry
  | .BNE => !(s.flag .zero)
  | .BEQ => s.flag .zero
  | _ => false

/-- The penalties (70_reset_and_hazards R332, R333): one cycle for a read-class instruction whose index crosses a page;
one for a taken branch, one more when its target is in another page than the next instruction. The state is the one the
operation starts in, PC past the instruction. -/
def penaltyCycles (i : Instr) (s : State) : Nat :=
  match i.mnemonic.accessClass, i.operand with
  | .read, .memory m => if indexCrosses m s then 1 else 0
  | .branch, .relative off =>
    if branchCondition i.mnemonic s then (if pageCrossed s.pc (s.pc + sext16 off) then 2 else 1) else 0
  | _, _ => 0

/-- `cycles = base(op) + penalties` (70_reset_and_hazards R334). -/
def instrCycles (i : Instr) (s : State) : Nat := i.baseCycles + penaltyCycles i s

/-- The cycle count of the step from a state (70_reset_and_hazards R334). -/
def stepCycles (s : State) : Nat := instrCycles (fetchInstr s).1 (fetchInstr s).2

/-- `Step(state) -> (state', cycles)` (00_scope R15). -/
def stepWithCycles (s : State) : Host.Outcome (State × Nat) Fault Refusal :=
  match step s with
  | .next t => .next (t, stepCycles s)
  | .fault r => .fault r
  | .refused r => .refused r

end Sys2Proof.Machine
end

