-- ==== Sys2Proof/Machine/HostOps.lean ====
section
/-!
DEFINITION. What the host can do between steps (70_reset_and_hazards R300 to R310, 20_memory R40, R59): register a
binding, load bytes, reset, execute for a cycle budget, run until a PC, inspect memory. The host writes no register
(10_state R38, D24). Each is refused on a bus configuration that fails the check of 20_memory R45.
-/

namespace Sys2Proof.Machine

/-- What a host operation with a value answers. -/
abbrev HostResult (α : Type) := Host.Outcome α Fault Refusal

/-- `register(range, device)` (20_memory R40): append a binding. Bindings are "added only during setup; never removed"
(R304), so after the first reset there is no such operation (log 10). -/
def hostRegister (b : Binding) (s : State) : Option State :=
  if s.resetDone then none else some { s with bus := s.bus ++ [b] }

/-- The writes of `Load` (70_reset_and_hazards R306): through the bus, in increasing order, none past 0xFFFF. -/
def loadBytes : Nat → List Byte → Bus → Bus
  | _, [], bus => bus
  | addr, v :: vs, bus =>
    if addr > 0xFFFF then bus else loadBytes (addr + 1) vs (bus.write (BitVec.ofNat 16 addr) v)

/-- `Load(start, bytes)` (70_reset_and_hazards R306): false, and nothing written, when there is no byte. -/
def hostLoad (start : Addr) (bytes : List Byte) (s : State) : HostResult (Bool × State) :=
  if s.bus.fits = false then .refused .busConfiguration
  else .next (!bytes.isEmpty, { s with bus := loadBytes start.toNat bytes s.bus })

/-- `Reset()` (70_reset_and_hazards R301): the register values, then PC from 0xFFFC and 0xFFFD, read in this order. -/
def resetState (s : State) : State :=
  { s with a := 0x00, x := 0x00, y := 0x00, sp := 0xFD, p := 0x24,
           pc := (s.bus.readPair 0xFFFC 0xFFFD).1, bus := (s.bus.readPair 0xFFFC 0xFFFD).2, resetDone := true }

/-- Reset as the host calls it, at any point between steps (70_reset_and_hazards R302). -/
def hostReset (s : State) : HostResult State :=
  if s.bus.fits = false then .refused .busConfiguration else .next (resetState s)

/-- A host read of memory, through the bus, which may change a device (20_memory R59). -/
def hostRead (addr : Addr) (s : State) : HostResult (Byte × State) :=
  if s.bus.fits = false then .refused .busConfiguration
  else .next ((s.bus.read addr).1, { s with bus := (s.bus.read addr).2 })

/-- Whole steps while budget remains; `used` counts the cycles so far. A step costs at least one cycle (R334), so the
budget itself bounds the number of steps and serves as fuel; what an overshoot leaves of the budget is 0. -/
def executeLoop : Nat → Nat → Nat → State → HostResult (Nat × State)
  | 0, _, used, s => .next (used, s)
  | fuel + 1, remaining, used, s =>
    if remaining = 0 then .next (used, s)
    else
      match step s with
      | .next t => executeLoop fuel (remaining - stepCycles s) (used + stepCycles s) t
      | .fault r => .fault r
      | .refused r => .refused r

/-- `Execute(N)` (70_reset_and_hazards R308): the cycles consumed, which may exceed N by part of one instruction, and
the state. Refused before the first reset whatever N is (R303). -/
def hostExecute (n : Nat) (s : State) : HostResult (Nat × State) :=
  if s.resetDone = false then .refused .beforeReset
  else if s.bus.fits = false then .refused .busConfiguration
  else executeLoop n n 0 s

/-- Steps until PC is the address, checked before every step; the caller's fuel bounds the number of steps (U14). The
flag says whether the address was reached. -/
def runUntilLoop : Nat → Addr → State → HostResult (Bool × State)
  | 0, target, s => .next (s.pc == target, s)
  | fuel + 1, target, s =>
    if s.pc = target then .next (true, s)
    else
      match step s with
      | .next t => runUntilLoop fuel target t
      | .fault r => .fault r
      | .refused r => .refused r

/-- `RunUntil(X)` (70_reset_and_hazards R309) with the caller's bound on the number of steps (log 14). -/
def hostRunUntil (fuel : Nat) (target : Addr) (s : State) : HostResult (Bool × State) :=
  if s.resetDone = false then .refused .beforeReset
  else if s.bus.fits = false then .refused .busConfiguration
  else runUntilLoop fuel target s

end Sys2Proof.Machine
end

