-- ==== Sys2Proof/Safety.lean ====
section
/-!
DEFINITION. The terms claims use: the states a run of the machine can be in, what an instruction stores to, and what it
means that memory, or a device, is left alone.
-/

namespace Sys2Proof.Machine

/-- The invariant of a run: the machine has been reset, its bus configuration passes the check of 20_memory R45, and
every memory on the bus is in canonical form. -/
def State.inv (s : State) : Bool := s.resetDone && s.bus.fits && s.bus.wf

/-- The addresses an instruction writes, in the order it writes them, from the state its operation starts in (30_encoding
R78, 46_stack_system R240). -/
def storedAddrs (i : Instr) (s : State) : List Addr :=
  match i.mnemonic.accessClass, i.operand, i.mnemonic with
  | .write, .memory m, _ => [(effectiveAddr m s).1]
  | .modify, .memory m, _ => [(effectiveAddr m s).1]
  | _, _, .PHA => [stackAddr s.sp]
  | _, _, .PHP => [stackAddr s.sp]
  | _, _, .JSR => [stackAddr s.sp, stackAddr (s.sp - 1)]
  | _, _, .BRK => [stackAddr s.sp, stackAddr (s.sp - 1), stackAddr (s.sp - 2)]
  | _, _, _ => []

/-- Every byte of memory outside the given addresses reads as before. An address served by a device other than memory is
left out: what such a device answers after an access is its own affair (20_memory R46). -/
def memoryKeptBut (stored : List Addr) (s t : Bus) : Prop :=
  ∀ addr : Addr, s.plainAt addr = true → addr ∉ stored → t.peek addr = s.peek addr

/-- What a binding is, without the state of its device: range, kind of device and size. -/
def Binding.shape (b : Binding) : Addr × Addr × Option Nat × Bool × Nat :=
  match b.device with
  | .ram n _ => (b.first, b.last, none, true, n)
  | .rom n _ => (b.first, b.last, none, false, n)
  | .external u n _ => (b.first, b.last, some u, false, n)

/-- The bus configuration: the bindings without device state. -/
def Bus.shape (bus : Bus) : List (Addr × Addr × Option Nat × Bool × Nat) := bus.map Binding.shape

/-- The contents of the write-ignoring memories, in registration order. -/
def Bus.romContents (bus : Bus) : List Memory :=
  bus.filterMap fun b =>
    match b.device with
    | .rom _ m => some m
    | .ram _ _ => none
    | .external _ _ _ => none

/-- The flags outside a list are as before. -/
def flagsKeptBut (written : List Flag) (p q : Byte) : Prop :=
  ∀ f : Flag, f ∉ written → getFlag f q = getFlag f p

end Sys2Proof.Machine
end

