-- ==== Sys2Proof/Certificates/Slice0/Obligations.lean ====
section
/-!
DEFINITION. The statements for the provers. A statement about a mnemonic holds for every form the opcode list gives it;
`Claims.encodings` lists the opcode bytes and modes of those forms. A result statement says the whole next state: a
register that is not named in the record update keeps its value.
-/

namespace Sys2Proof.Claims

open Sys2Proof Sys2Proof.Machine

/-- Each listed opcode byte decodes, whatever the operand bytes are, to the mnemonic with the listed mode. -/
def encodings (m : Mnemonic) (rows : List (Byte × Mode)) : Prop :=
  ∀ row ∈ rows, ∀ b c : Byte, ∃ i rest, decode [row.1, b, c] = .ok (i, rest) ∧ i.mnemonic = m ∧ i.mode = row.2

/-- The eight forms of a read-class instruction on A. -/
def eightForms (imm zp zpx abs absx absy indx indy : Byte) : List (Byte × Mode) :=
  [(imm, .imm), (zp, .zp), (zpx, .zpx), (abs, .abs), (absx, .absx), (absy, .absy), (indx, .indx), (indy, .indy)]

/-- The five forms of a shift. -/
def fiveForms (acc zp zpx abs absx : Byte) : List (Byte × Mode) :=
  [(acc, .acc), (zp, .zp), (zpx, .zpx), (abs, .abs), (absx, .absx)]

/-- The byte a read-class instruction works on, and the bus after its accesses: the immediate byte, or one read at the
effective address (30_encoding R64, R78). -/
def operandByte : Operand → State → Option (Byte × Bus)
  | .immediate v, s => some (v, s.bus)
  | .memory m, s => some (loadByte m s)
  | .implied, _ => none
  | .accumulator, _ => none
  | .indirect _, _ => none
  | .relative _, _ => none

/-- Zero and Negative of `q` are those of the result `r` (00_scope R13). -/
def nzOf (r q : Byte) : Prop :=
  getFlag .zero q = decide (r.toNat = 0) ∧ getFlag .negative q = decide (128 ≤ r.toNat)

/-- A compare of a register with the operand byte. -/
def compares (m : Mnemonic) (reg : State → Byte) : Prop :=
  ∀ (i : Instr) (s : State), i.mnemonic = m →
    ∃ v b q, operandByte i.operand s = some (v, b) ∧ exec i s = .next { s with p := q, bus := b } ∧
      getFlag .carry q = decide ((reg s).toNat ≥ v.toNat) ∧ getFlag .zero q = decide (reg s = v) ∧
      getFlag .negative q = decide (128 ≤ ((reg s).toNat + 256 - v.toNat) % 256) ∧
      flagsKeptBut [.carry, .zero, .negative] s.p q

/-- A bitwise operation of A with the operand byte. -/
def bitwise (m : Mnemonic) (op : Bool → Bool → Bool) : Prop :=
  ∀ (i : Instr) (s : State), i.mnemonic = m →
    ∃ v b r q, operandByte i.operand s = some (v, b) ∧ exec i s = .next { s with a := r, p := q, bus := b } ∧
      (∀ k < 8, r.getLsbD k = op (s.a.getLsbD k) (v.getLsbD k)) ∧ nzOf r q ∧ flagsKeptBut [.zero, .negative] s.p q

/-- A read-modify-write instruction on memory: one read of `v`, one write of `r` at the same address. -/
def modifies (m : Mnemonic) (value : Nat → Nat) : Prop :=
  ∀ (i : Instr) (s : State), i.mnemonic = m →
    ∃ w r q, i.operand = .memory w ∧
      exec i s = .next { s with bus := (loadByte w s).2.write (effectiveAddr w s).1 r, p := q } ∧
      r.toNat = value (loadByte w s).1.toNat ∧ nzOf r q ∧ flagsKeptBut [.zero, .negative] s.p q

/-- A shift or rotate of `v` (A, or one byte of memory that is read once and written once) to `r`, given the old Carry
as a number. -/
def shifts (m : Mnemonic) (value : Nat → Nat → Nat) (carryOut : Nat → Bool) : Prop :=
  ∀ (i : Instr) (s : State), i.mnemonic = m →
    ∃ v r q, r.toNat = value v (s.flag .carry).toNat ∧ getFlag .carry q = carryOut v ∧ nzOf r q ∧
      flagsKeptBut [.carry, .zero, .negative] s.p q ∧
      ((i.operand = .accumulator ∧ v = s.a.toNat ∧ exec i s = .next { s with a := r, p := q }) ∨
        ∃ w, i.operand = .memory w ∧ v = (loadByte w s).1.toNat ∧
          exec i s = .next { s with bus := (loadByte w s).2.write (effectiveAddr w s).1 r, p := q })

/-- A store of a register: one write at the effective address and no read of it. -/
def stores (m : Mnemonic) (reg : State → Byte) : Prop :=
  ∀ (i : Instr) (s : State), i.mnemonic = m →
    ∃ w, i.operand = .memory w ∧
      exec i s = .next { s with bus := (effectiveAddr w s).2.write (effectiveAddr w s).1 (reg s) }

/-- An instruction that writes one flag. -/
def writesFlag (i : Instr) (f : Flag) (v : Bool) : Prop :=
  ∀ s : State, ∃ q, exec i s = .next { s with p := q } ∧ getFlag f q = v ∧ flagsKeptBut [f] s.p q

/-- A conditional branch: taken, PC moves by the signed offset from the next instruction, modulo 65536; not taken, PC
stays at the next instruction. -/
def branches (i : Byte → Instr) (f : Flag) (v : Bool) : Prop :=
  ∀ (off : Byte) (s : State), ∃ q : Addr, exec (i off) s = .next { s with pc := q } ∧
    (s.flag f = v → (q.toNat : Int) = ((s.pc.toNat : Int) + off.toInt) % 65536) ∧ (s.flag f ≠ v → q = s.pc)

/-- A sequence of pushes (`some v`) and pulls (`none`). -/
def runStack : List (Option Byte) → State → State
  | [], s => s
  | some v :: ops, s => runStack ops (push v s)
  | none :: ops, s => runStack ops (pull s).2

/-- The addresses a sequence of pushes and pulls writes and reads, in order. -/
def stackAccesses : List (Option Byte) → State → List Addr
  | [], _ => []
  | some v :: ops, s => stackAddr s.sp :: stackAccesses ops (push v s)
  | none :: ops, s => stackAddr (s.sp + 1) :: stackAccesses ops (pull s).2

/-- Two states that agree in everything but the bits of P outside a mask. -/
def agreeOn (mask : Byte) (s t : State) : Prop := t = { s with p := t.p } ∧ t.p &&& mask = s.p &&& mask

/-- The cycles of the first `k` steps from a state: the sum of their counts (70_reset_and_hazards R334). -/
def runCycles : Nat → State → Nat
  | 0, _ => 0
  | k + 1, s => stepCycles s + match step s with
    | .next t => runCycles k t
    | .fault _ => 0
    | .refused _ => 0

end Sys2Proof.Claims

open Sys2Proof Sys2Proof.Machine Sys2Proof.Claims

/-! ## Encoding -/

/-- A few words written out from 30_encoding R61 and R79 (bytes by the spec's D1): immediate, zero page, absolute low byte
first, implied, relative, indirect, and an unrecognised byte of R81, one byte long by the spec's D21 (its constructor:
log 17). -/
def Obligations.DecodeReadsSampleWords : Prop :=
  decode [0xA9, 0x69] = .ok (.ldaImm 0x69, []) ∧ decode [0x69, 0x01] = .ok (.adcImm 0x01, []) ∧
  decode [0x66, 0x10] = .ok (.rorZp 0x10, []) ∧ decode [0x8D, 0x00, 0x02] = .ok (.staAbs 0x0200, []) ∧
  decode [0x38] = .ok (.sec, []) ∧ decode [0xD0, 0xFC] = .ok (.bne 0xFC, []) ∧
  decode [0x6C, 0xFF, 0x10] = .ok (.jmpInd 0x10FF, []) ∧ decode [0x00, 0xEA] = .ok (.brk, [0xEA]) ∧
  decode [0x02, 0xFF] = .ok (.unrecognised 0x02, [0xFF])

/-- Decoding the bytes of any well-formed instruction, whatever bytes follow, gives the instruction back. -/
def Obligations.DecodeInvertsEncode : Prop :=
  ∀ (i : Instr) (rest : List Byte), i.wf = true → decode (encode i ++ rest) = .ok (i, rest)

/-- Whatever decodes is well formed, and its encoding is the bytes it was decoded from. -/
def Obligations.EncodeInvertsDecode : Prop :=
  ∀ (bytes rest : List Byte) (i : Instr), decode bytes = .ok (i, rest) → i.wf = true ∧ encode i ++ rest = bytes

/-- Every one of the 256 byte values selects exactly one instruction and mode, and its length by the byte alone
(30_encoding R62, R63). -/
def Obligations.EveryOpcodeByteDecodes : Prop :=
  ∀ (op b c : Byte) (rest : List Byte), ∃ i, i.wf = true ∧
    decode (op :: b :: c :: rest) = .ok (i, (op :: b :: c :: rest).drop (instrLength op)) ∧
    (encode i).length = instrLength op

/-- The bytes without a mnemonic are exactly the 105 of 30_encoding R81, one byte long (D1, D21). -/
def Obligations.UnrecognisedBytesAreTheListedOnes : Prop :=
  unrecognisedOpcodes.length = 105 ∧
  ∀ (op : Byte) (rest : List Byte),
    (op ∈ unrecognisedOpcodes → decode (op :: rest) = .ok (.unrecognised op, rest)) ∧
    (op ∉ unrecognisedOpcodes → ∀ op' rest', decode (op :: rest) ≠ .ok (.unrecognised op', rest'))

/-! ## The step -/

/-- Once the machine is reset and its bus configuration accepted, the bytes at PC, as many as the opcode byte says,
decode to a well-formed instruction, and the step is that instruction's meaning on the state in which they are
fetched. That all operand bytes are fetched before the meaning's own accesses, on devices with read effects too, is
20_memory R58 as log 9 reads it (DEDUCED). -/
def Obligations.StepRunsTheDecodedInstruction : Prop :=
  ∀ s : State, s.resetDone = true → s.bus.fits = true →
    ∃ i, i.wf = true ∧ decode (fetchBytes (instrLength (s.bus.peek s.pc)) s).1 = .ok (i, []) ∧
      step s = exec i (fetchBytes (instrLength (s.bus.peek s.pc)) s).2

/-- Where the instruction's bytes are memory, fetching them only advances PC past them. -/
def Obligations.StepOnMemoryAdvancesPastTheInstruction : Prop :=
  ∀ (s : State) (i : Instr) (rest : List Byte), s.resetDone = true → s.bus.fits = true →
    decode [s.bus.peek s.pc, s.bus.peek (s.pc + 1), s.bus.peek (s.pc + 2)] = .ok (i, rest) →
    (∀ k < (encode i).length, s.bus.plainAt (s.pc + BitVec.ofNat 16 k) = true) →
    step s = exec i { s with pc := s.pc + BitVec.ofNat 16 (encode i).length }

/-- Log 15: the state a fetch word is placed in runs that instruction next, on any accepted bus. -/
def Obligations.StepRunsThePlacedInstruction : Prop :=
  ∀ (s : State) (nbits w : Nat) (i : Instr), s.bus.fits = true → s.bus.wf = true →
    decodeTableWord nbits w = some i →
    step (s.withFetchWord nbits w) =
      exec i { s.withFetchWord nbits w with pc := s.pc + BitVec.ofNat 16 (encode i).length }

/-- Before the first reset, step, execute and run-until are refused (70_reset_and_hazards R303, the spec's D11). On a
configuration that fails the check of 20_memory R45 (D23) every operation that runs the core or reaches the bus is
refused. -/
def Obligations.RefusedBeforeResetAndOnBadConfiguration : Prop :=
  (∀ s : State, s.resetDone = false →
    step s = .refused .beforeReset ∧ (∀ n, hostExecute n s = .refused .beforeReset) ∧
    (∀ fuel x, hostRunUntil fuel x s = .refused .beforeReset)) ∧
  (∀ s : State, s.bus.fits = false →
    (s.resetDone = true → step s = .refused .busConfiguration ∧ (∀ n, hostExecute n s = .refused .busConfiguration) ∧
      ∀ fuel x, hostRunUntil fuel x s = .refused .busConfiguration) ∧
    hostReset s = .refused .busConfiguration ∧ (∀ start bytes, hostLoad start bytes s = .refused .busConfiguration) ∧
    ∀ x, hostRead x s = .refused .busConfiguration)

/-- Every state transition is total (60_exceptions R270): once reset, on an accepted configuration, a step answers a
next state, and so does every instruction in every state. -/
def Obligations.StepIsTotal : Prop :=
  (∀ s : State, s.resetDone = true → s.bus.fits = true → ∃ t, step s = .next t) ∧
  ∀ (i : Instr) (s : State), ∃ t, exec i s = .next t

/-! ## Invariants and whole-machine rules -/

/-- The state after reset meets the invariant. It stands on the default platform, the model's choice (log 2; 20_memory
R47, the spec's D9), with nothing listed in memory (log 3). -/
def Obligations.ResetMeetsTheInvariant : Prop := State.reset.inv = true

/-- Every step keeps the invariant: the machine stays reset, the bus configuration accepted, and every memory in
canonical form. -/
def Obligations.StepKeepsTheInvariant : Prop :=
  ∀ s t : State, s.inv = true → step s = .next t → t.inv = true

/-- No step changes the parameters (10_state R34) or the bindings (20_memory R40). -/
def Obligations.StepKeepsTheConfiguration : Prop :=
  ∀ s t : State, step s = .next t → t.config = s.config ∧ t.bus.shape = s.bus.shape

/-- No step changes a write-ignoring memory (20_memory R50; that a read of one changes nothing is log 7). -/
def Obligations.StepKeepsWriteIgnoringMemory : Prop :=
  ∀ s t : State, step s = .next t → t.bus.romContents = s.bus.romContents

/-- No instruction can observe the stored Break and Unused bits (10_state R29, R30): two states that differ in them
alone take steps to states that differ in them at most. -/
def Obligations.BreakAndUnusedAreUnobservable : Prop :=
  ∀ s s' t : State, agreeOn 0xCF s s' → step s = .next t → ∃ t', step s' = .next t' ∧ agreeOn 0xCF t t'

/-- P.I and P.D decide nothing (10_state R27, R28; the spec's D2 and D4): two states that differ in them alone take any
instruction but the two that push P to states that differ in them at most. -/
def Obligations.InterruptDisableAndDecimalDecideNothing : Prop :=
  ∀ (i : Instr) (s s' t : State), i.mnemonic ≠ .PHP → i.mnemonic ≠ .BRK → agreeOn 0xF3 s s' → exec i s = .next t →
    ∃ t', exec i s' = .next t' ∧ agreeOn 0xF3 t t'

/-- Which instructions write which register. For A, X, Y and SP this is the "written by" column of 10_state R20, which the
spec derives. The PC clause is not that column, which lists every instruction for PC: it follows from R22, the
instruction rules and log 9 (`exec` starts with PC past the instruction). The reset-done clause is R37 and
70_reset_and_hazards R303. -/
def Obligations.RegistersAreWrittenOnlyByTheListedInstructions : Prop :=
  ∀ (i : Instr) (s t : State), exec i s = .next t →
    (t.a ≠ s.a → i.mnemonic ∈ [.ADC, .SBC, .AND, .ORA, .EOR, .LDA, .TXA, .TYA, .PLA] ∨
      (i.mnemonic ∈ [.ASL, .LSR, .ROL, .ROR] ∧ i.mode = .acc)) ∧
    (t.x ≠ s.x → i.mnemonic ∈ [.LDX, .TAX, .TSX, .INX, .DEX]) ∧
    (t.y ≠ s.y → i.mnemonic ∈ [.LDY, .TAY, .INY, .DEY]) ∧
    (t.sp ≠ s.sp → i.mnemonic ∈ [.TXS, .PHA, .PHP, .PLA, .PLP, .JSR, .RTS, .BRK, .RTI]) ∧
    (t.pc ≠ s.pc → i.mnemonic.accessClass = .branch ∨ i.mnemonic ∈ [.JMP, .JSR, .RTS, .BRK, .RTI]) ∧
    t.resetDone = s.resetDone

/-- Which instructions write which bit of P (the "written by" column of 10_state R24, which the spec derives). -/
def Obligations.FlagsAreWrittenOnlyByTheListedInstructions : Prop :=
  ∀ (i : Instr) (s t : State), exec i s = .next t →
    (t.flag .carry ≠ s.flag .carry →
      i.mnemonic ∈ [.ADC, .SBC, .CMP, .CPX, .CPY, .ASL, .LSR, .ROL, .ROR, .CLC, .SEC, .PLP, .RTI]) ∧
    (t.flag .interruptDisable ≠ s.flag .interruptDisable → i.mnemonic ∈ [.CLI, .SEI, .PLP, .RTI] ∨
      (i.mnemonic = .BRK ∧ s.config.brkSetsI = true)) ∧
    (t.flag .decimal ≠ s.flag .decimal → i.mnemonic ∈ [.CLD, .SED, .PLP, .RTI]) ∧
    (t.flag .brk ≠ s.flag .brk → i.mnemonic ∈ [.BRK, .PLP, .RTI]) ∧
    (t.flag .unused ≠ s.flag .unused → i.mnemonic ∈ [.PLP, .RTI]) ∧
    (t.flag .overflow ≠ s.flag .overflow → i.mnemonic ∈ [.ADC, .SBC, .BIT, .CLV, .PLP, .RTI]) ∧
    (t.flag .zero ≠ s.flag .zero ∨ t.flag .negative ≠ s.flag .negative →
      i.mnemonic ∈ [.ADC, .SBC, .CMP, .CPX, .CPY, .INC, .DEC, .INX, .INY, .DEX, .DEY, .AND, .ORA, .EOR, .BIT, .ASL,
        .LSR, .ROL, .ROR, .LDA, .LDX, .LDY, .TAX, .TAY, .TXA, .TYA, .TSX, .PLA, .PLP, .RTI])

/-- The memory frame of every instruction: a byte of memory that the instruction does not store to reads as before.
`storedAddrs` computes the addresses stored to with the meanings' own resolver and stack address. -/
def Obligations.OnlyStoredBytesOfMemoryChange : Prop :=
  ∀ (i : Instr) (s t : State), exec i s = .next t → memoryKeptBut (storedAddrs i s) s.bus t.bus

/-- What is stored is read back: after a store of a register by any form, the byte at the effective address is the
register's value, where RAM serves the address. -/
def Obligations.StoredRegisterIsReadBack : Prop :=
  ∀ (i : Instr) (s : State) (w : MemOperand) (reg : Byte), s.inv = true → i.operand = .memory w →
    ((i.mnemonic = .STA ∧ reg = s.a) ∨ (i.mnemonic = .STX ∧ reg = s.x) ∨ (i.mnemonic = .STY ∧ reg = s.y)) →
    s.bus.ramAt (effectiveAddr w s).1 = true →
    ∃ t, exec i s = .next t ∧ t.bus.peek (effectiveAddr w s).1 = reg

/-! ## Addressing modes -/

/-- The modes that read no pointer (30_encoding R67 to R72, the wraps by the spec's D22): the effective address, and the
bus untouched. -/
def Obligations.DirectModesEffectiveAddress : Prop :=
  ∀ (s : State) (z : Byte) (addr : Addr),
    ((effectiveAddr (.zp z) s).1.toNat = z.toNat ∧ (effectiveAddr (.zp z) s).2 = s.bus) ∧
    ((effectiveAddr (.zpx z) s).1.toNat = (z.toNat + s.x.toNat) % 256 ∧ (effectiveAddr (.zpx z) s).2 = s.bus) ∧
    ((effectiveAddr (.zpy z) s).1.toNat = (z.toNat + s.y.toNat) % 256 ∧ (effectiveAddr (.zpy z) s).2 = s.bus) ∧
    ((effectiveAddr (.abs addr) s).1 = addr ∧ (effectiveAddr (.abs addr) s).2 = s.bus) ∧
    ((effectiveAddr (.absx addr) s).1.toNat = (addr.toNat + s.x.toNat) % 65536 ∧
      (effectiveAddr (.absx addr) s).2 = s.bus) ∧
    ((effectiveAddr (.absy addr) s).1.toNat = (addr.toNat + s.y.toNat) % 65536 ∧
      (effectiveAddr (.absy addr) s).2 = s.bus)

/-- The two modes that read a pointer in page 0 (30_encoding R74, R75, the pointer's own wrap by the spec's D6): low
byte first, then high byte, each one read. -/
def Obligations.IndirectModesEffectiveAddress : Prop :=
  ∀ (s : State) (z : Byte),
    (∃ p p' : Addr, ∃ lo hi : Byte, ∃ b c : Bus,
      p.toNat = (z.toNat + s.x.toNat) % 256 ∧ p'.toNat = (z.toNat + s.x.toNat + 1) % 256 ∧
      s.bus.read p = (lo, b) ∧ b.read p' = (hi, c) ∧
      (effectiveAddr (.indx z) s).1.toNat = 256 * hi.toNat + lo.toNat ∧ (effectiveAddr (.indx z) s).2 = c) ∧
    (∃ p p' : Addr, ∃ lo hi : Byte, ∃ b c : Bus,
      p.toNat = z.toNat ∧ p'.toNat = (z.toNat + 1) % 256 ∧ s.bus.read p = (lo, b) ∧ b.read p' = (hi, c) ∧
      (effectiveAddr (.indy z) s).1.toNat = (256 * hi.toNat + lo.toNat + s.y.toNat) % 65536 ∧
      (effectiveAddr (.indy z) s).2 = c)

/-! ## The bus -/

/-- The first registered binding that contains the address answers a read, at the offset from its start, and no other
device changes; no binding answers 0x00 and nothing changes (20_memory R41). -/
def Obligations.BusReadTakesTheFirstMatch : Prop :=
  (∀ (bus : Bus) (x : Addr), (∀ b ∈ bus, ¬ (b.first.toNat ≤ x.toNat ∧ x.toNat ≤ b.last.toNat)) →
    bus.read x = (0x00, bus)) ∧
  ∀ (before after : Bus) (b : Binding) (x : Addr),
    (∀ c ∈ before, ¬ (c.first.toNat ≤ x.toNat ∧ x.toNat ≤ c.last.toNat)) →
    b.first.toNat ≤ x.toNat → x.toNat ≤ b.last.toNat →
    ∃ off : Addr, off.toNat = x.toNat - b.first.toNat ∧
      (before ++ b :: after).read x =
        ((b.device.read off).1, before ++ { b with device := (b.device.read off).2 } :: after)

/-- The first registered binding that contains the address takes a write; no binding: nothing happens (20_memory
R42). -/
def Obligations.BusWriteTakesTheFirstMatch : Prop :=
  (∀ (bus : Bus) (x : Addr) (v : Byte), (∀ b ∈ bus, ¬ (b.first.toNat ≤ x.toNat ∧ x.toNat ≤ b.last.toNat)) →
    bus.write x v = bus) ∧
  ∀ (before after : Bus) (b : Binding) (x : Addr) (v : Byte),
    (∀ c ∈ before, ¬ (c.first.toNat ≤ x.toNat ∧ x.toNat ≤ c.last.toNat)) →
    b.first.toNat ≤ x.toNat → x.toNat ≤ b.last.toNat →
    ∃ off : Addr, off.toNat = x.toNat - b.first.toNat ∧
      (before ++ b :: after).write x v = before ++ { b with device := b.device.write off v } :: after

/-! ## Arithmetic -/

/-- ADC (41_arithmetic R101). That the sum is binary whatever D holds is the spec's D2. -/
def Obligations.AdcAddsWithCarry : Prop :=
  encodings .ADC (eightForms 0x69 0x65 0x75 0x6D 0x7D 0x79 0x61 0x71) ∧
  ∀ (i : Instr) (s : State), i.mnemonic = .ADC →
    ∃ v b r q, operandByte i.operand s = some (v, b) ∧ exec i s = .next { s with a := r, p := q, bus := b } ∧
      r.toNat = (s.a.toNat + v.toNat + (s.flag .carry).toNat) % 256 ∧
      getFlag .carry q = decide (s.a.toNat + v.toNat + (s.flag .carry).toNat > 255) ∧
      getFlag .overflow q = (s.a.getLsbD 7 == v.getLsbD 7 && s.a.getLsbD 7 != r.getLsbD 7) ∧
      nzOf r q ∧ flagsKeptBut [.carry, .overflow, .zero, .negative] s.p q

/-- SBC (41_arithmetic R102). The overflow expression is one the spec supplies from general knowledge. -/
def Obligations.SbcSubtractsWithBorrow : Prop :=
  encodings .SBC (eightForms 0xE9 0xE5 0xF5 0xED 0xFD 0xF9 0xE1 0xF1) ∧
  ∀ (i : Instr) (s : State), i.mnemonic = .SBC →
    ∃ v b r q, operandByte i.operand s = some (v, b) ∧ exec i s = .next { s with a := r, p := q, bus := b } ∧
      (r.toNat : Int) = ((s.a.toNat : Int) - v.toNat - (1 - (s.flag .carry).toNat)) % 256 ∧
      getFlag .carry q = decide ((s.a.toNat : Int) - v.toNat - (1 - (s.flag .carry).toNat) ≥ 0) ∧
      getFlag .overflow q = (s.a.getLsbD 7 != v.getLsbD 7 && s.a.getLsbD 7 != r.getLsbD 7) ∧
      nzOf r q ∧ flagsKeptBut [.carry, .overflow, .zero, .negative] s.p q

/-- The overflow flag of ADC and SBC is signed overflow (10_state R31): the exact two's-complement sum or difference
does not fit a signed byte. -/
def Obligations.OverflowIsSignedOverflow : Prop :=
  ∀ (i : Instr) (s t : State) (v : Byte) (b : Bus), operandByte i.operand s = some (v, b) → exec i s = .next t →
    (i.mnemonic = .ADC → (t.flag .overflow = true ↔
      ¬ (-128 ≤ s.a.toInt + v.toInt + (s.flag .carry).toNat ∧ s.a.toInt + v.toInt + (s.flag .carry).toNat ≤ 127))) ∧
    (i.mnemonic = .SBC → (t.flag .overflow = true ↔
      ¬ (-128 ≤ s.a.toInt - v.toInt - (1 - (s.flag .carry).toNat) ∧
        s.a.toInt - v.toInt - (1 - (s.flag .carry).toNat) ≤ 127)))

/-- CMP, CPX, CPY (41_arithmetic R103 to R105). -/
def Obligations.ComparesSetFlagsOnly : Prop :=
  (encodings .CMP (eightForms 0xC9 0xC5 0xD5 0xCD 0xDD 0xD9 0xC1 0xD1) ∧ compares .CMP fun s => s.a) ∧
  (encodings .CPX [(0xE0, .imm), (0xE4, .zp), (0xEC, .abs)] ∧ compares .CPX fun s => s.x) ∧
  (encodings .CPY [(0xC0, .imm), (0xC4, .zp), (0xCC, .abs)] ∧ compares .CPY fun s => s.y)

/-- INC and DEC (41_arithmetic R106, R107): modulo 256, one read and one write (the spec's D8), never Carry. -/
def Obligations.IncAndDecModifyMemory : Prop :=
  (encodings .INC [(0xE6, .zp), (0xF6, .zpx), (0xEE, .abs), (0xFE, .absx)] ∧ modifies .INC fun v => (v + 1) % 256) ∧
  (encodings .DEC [(0xC6, .zp), (0xD6, .zpx), (0xCE, .abs), (0xDE, .absx)] ∧ modifies .DEC fun v => (v + 255) % 256)

/-- INX, INY, DEX, DEY (41_arithmetic R108 to R111, supplied by the spec from general knowledge). -/
def Obligations.IndexRegistersCountModulo256 : Prop :=
  encodings .INX [(0xE8, .imp)] ∧ encodings .INY [(0xC8, .imp)] ∧ encodings .DEX [(0xCA, .imp)] ∧
  encodings .DEY [(0x88, .imp)] ∧
  ∀ s : State,
    (∃ r q, exec .inx s = .next { s with x := r, p := q } ∧ r.toNat = (s.x.toNat + 1) % 256 ∧ nzOf r q ∧
      flagsKeptBut [.zero, .negative] s.p q) ∧
    (∃ r q, exec .iny s = .next { s with y := r, p := q } ∧ r.toNat = (s.y.toNat + 1) % 256 ∧ nzOf r q ∧
      flagsKeptBut [.zero, .negative] s.p q) ∧
    (∃ r q, exec .dex s = .next { s with x := r, p := q } ∧ r.toNat = (s.x.toNat + 255) % 256 ∧ nzOf r q ∧
      flagsKeptBut [.zero, .negative] s.p q) ∧
    (∃ r q, exec .dey s = .next { s with y := r, p := q } ∧ r.toNat = (s.y.toNat + 255) % 256 ∧ nzOf r q ∧
      flagsKeptBut [.zero, .negative] s.p q)

/-! ## Logic and shifts -/

/-- AND, ORA, EOR (42_logical_shift R130 to R132): bit by bit, Zero and Negative only. -/
def Obligations.LogicalOperationsAreBitwise : Prop :=
  (encodings .AND (eightForms 0x29 0x25 0x35 0x2D 0x3D 0x39 0x21 0x31) ∧ bitwise .AND fun a v => a && v) ∧
  (encodings .ORA (eightForms 0x09 0x05 0x15 0x0D 0x1D 0x19 0x01 0x11) ∧ bitwise .ORA fun a v => a || v) ∧
  (encodings .EOR (eightForms 0x49 0x45 0x55 0x4D 0x5D 0x59 0x41 0x51) ∧ bitwise .EOR fun a v => a != v)

/-- BIT (42_logical_shift R133; its two modes the spec supplies from general knowledge). -/
def Obligations.BitTestsTheOperand : Prop :=
  encodings .BIT [(0x24, .zp), (0x2C, .abs)] ∧
  ∀ (i : Instr) (s : State), i.mnemonic = .BIT →
    ∃ v b q, operandByte i.operand s = some (v, b) ∧ exec i s = .next { s with p := q, bus := b } ∧
      (getFlag .zero q = true ↔ ∀ k < 8, ¬ (s.a.getLsbD k = true ∧ v.getLsbD k = true)) ∧
      getFlag .overflow q = v.getLsbD 6 ∧ getFlag .negative q = v.getLsbD 7 ∧
      flagsKeptBut [.zero, .overflow, .negative] s.p q

/-- ASL, LSR, ROL, ROR (42_logical_shift R134 to R137) on A or on a byte of memory. -/
def Obligations.ShiftsAndRotatesThroughCarry : Prop :=
  (encodings .ASL (fiveForms 0x0A 0x06 0x16 0x0E 0x1E) ∧
    shifts .ASL (fun v _ => 2 * v % 256) (fun v => decide (128 ≤ v))) ∧
  (encodings .LSR (fiveForms 0x4A 0x46 0x56 0x4E 0x5E) ∧
    shifts .LSR (fun v _ => v / 2) (fun v => decide (v % 2 = 1))) ∧
  (encodings .ROL (fiveForms 0x2A 0x26 0x36 0x2E 0x3E) ∧
    shifts .ROL (fun v c => (2 * v + c) % 256) (fun v => decide (128 ≤ v))) ∧
  (encodings .ROR (fiveForms 0x6A 0x66 0x76 0x6E 0x7E) ∧
    shifts .ROR (fun v c => v / 2 + 128 * c) (fun v => decide (v % 2 = 1)))

/-! ## Data movement -/

/-- LDA, LDX, LDY (43_data_movement R160 to R162, supplied by the spec from general knowledge but for 0xA9). -/
def Obligations.LoadsReadTheOperand : Prop :=
  (encodings .LDA (eightForms 0xA9 0xA5 0xB5 0xAD 0xBD 0xB9 0xA1 0xB1) ∧
    encodings .LDX [(0xA2, .imm), (0xA6, .zp), (0xB6, .zpy), (0xAE, .abs), (0xBE, .absy)] ∧
    encodings .LDY [(0xA0, .imm), (0xA4, .zp), (0xB4, .zpx), (0xAC, .abs), (0xBC, .absx)]) ∧
  ∀ (i : Instr) (s : State), i.mnemonic ∈ [.LDA, .LDX, .LDY] →
    ∃ v b q, operandByte i.operand s = some (v, b) ∧ nzOf v q ∧ flagsKeptBut [.zero, .negative] s.p q ∧
      (i.mnemonic = .LDA → exec i s = .next { s with a := v, p := q, bus := b }) ∧
      (i.mnemonic = .LDX → exec i s = .next { s with x := v, p := q, bus := b }) ∧
      (i.mnemonic = .LDY → exec i s = .next { s with y := v, p := q, bus := b })

/-- STA, STX, STY (43_data_movement R163 to R165, supplied by the spec from general knowledge): no flag, no read of the
target. -/
def Obligations.StoresWriteTheRegister : Prop :=
  (encodings .STA [(0x85, .zp), (0x95, .zpx), (0x8D, .abs), (0x9D, .absx), (0x99, .absy), (0x81, .indx),
      (0x91, .indy)] ∧ stores .STA fun s => s.a) ∧
  (encodings .STX [(0x86, .zp), (0x96, .zpy), (0x8E, .abs)] ∧ stores .STX fun s => s.x) ∧
  (encodings .STY [(0x84, .zp), (0x94, .zpx), (0x8C, .abs)] ∧ stores .STY fun s => s.y)

/-- The transfers (43_data_movement R166 to R171, supplied by the spec from general knowledge); TXS writes no flag. -/
def Obligations.TransfersCopyRegisters : Prop :=
  (encodings .TAX [(0xAA, .imp)] ∧ encodings .TAY [(0xA8, .imp)] ∧ encodings .TXA [(0x8A, .imp)] ∧
    encodings .TYA [(0x98, .imp)] ∧ encodings .TSX [(0xBA, .imp)] ∧ encodings .TXS [(0x9A, .imp)]) ∧
  ∀ s : State,
    (∃ q, exec .tax s = .next { s with x := s.a, p := q } ∧ nzOf s.a q ∧ flagsKeptBut [.zero, .negative] s.p q) ∧
    (∃ q, exec .tay s = .next { s with y := s.a, p := q } ∧ nzOf s.a q ∧ flagsKeptBut [.zero, .negative] s.p q) ∧
    (∃ q, exec .txa s = .next { s with a := s.x, p := q } ∧ nzOf s.x q ∧ flagsKeptBut [.zero, .negative] s.p q) ∧
    (∃ q, exec .tya s = .next { s with a := s.y, p := q } ∧ nzOf s.y q ∧ flagsKeptBut [.zero, .negative] s.p q) ∧
    (∃ q, exec .tsx s = .next { s with x := s.sp, p := q } ∧ nzOf s.sp q ∧ flagsKeptBut [.zero, .negative] s.p q) ∧
    exec .txs s = .next { s with sp := s.x }

/-! ## Flag instructions -/

/-- The flag instructions (44_flag_ops R190 to R196, supplied by the spec from general knowledge): one bit of P each. -/
def Obligations.FlagInstructionsWriteOneBit : Prop :=
  (encodings .CLC [(0x18, .imp)] ∧ encodings .SEC [(0x38, .imp)] ∧ encodings .CLI [(0x58, .imp)] ∧
    encodings .SEI [(0x78, .imp)] ∧ encodings .CLD [(0xD8, .imp)] ∧ encodings .SED [(0xF8, .imp)] ∧
    encodings .CLV [(0xB8, .imp)]) ∧
  writesFlag .clc .carry false ∧ writesFlag .sec .carry true ∧ writesFlag .cli .interruptDisable false ∧
  writesFlag .sei .interruptDisable true ∧ writesFlag .cld .decimal false ∧ writesFlag .sed .decimal true ∧
  writesFlag .clv .overflow false

/-! ## Control flow -/

/-- The eight branches (45_control_flow R210 to R218, their conditions supplied by the spec from general knowledge, the
wrap by its D22). -/
def Obligations.BranchesTestOneFlag : Prop :=
  (encodings .BPL [(0x10, .rel)] ∧ encodings .BMI [(0x30, .rel)] ∧ encodings .BVC [(0x50, .rel)] ∧
    encodings .BVS [(0x70, .rel)] ∧ encodings .BCC [(0x90, .rel)] ∧ encodings .BCS [(0xB0, .rel)] ∧
    encodings .BNE [(0xD0, .rel)] ∧ encodings .BEQ [(0xF0, .rel)]) ∧
  branches .bpl .negative false ∧ branches .bmi .negative true ∧ branches .bvc .overflow false ∧
  branches .bvs .overflow true ∧ branches .bcc .carry false ∧ branches .bcs .carry true ∧
  branches .bne .zero false ∧ branches .beq .zero true

/-- The offset an assembler encodes for a branch to a label (30_encoding R83, supplied by the spec from general knowledge)
takes every branch whose condition holds to the label, and a label is refused only outside -128..127 of the next
instruction. -/
def Obligations.BranchOffsetReachesTheLabel : Prop :=
  (∀ (i : Instr) (address label : Addr) (off : Byte) (s : State), i.operand = .relative off →
    branchOffset address label = some off → s.pc = address + 2 → branchCondition i.mnemonic s = true →
    exec i s = .next { s with pc := label }) ∧
  ∀ address label : Addr, branchOffset address label = none ↔
    ((label.toNat : Int) < address.toNat + 2 - 128 ∨ (label.toNat : Int) > address.toNat + 2 + 127)

/-- JMP (45_control_flow R219, 30_encoding R73; pointer + 1 wraps by the spec's D7): the absolute form takes the operand;
the indirect form reads the low byte at the pointer, then the high byte, in the pointer's own page when `jmpBug` is on
and the pointer's low byte is 0xFF. -/
def Obligations.JmpLoadsThePc : Prop :=
  encodings .JMP [(0x4C, .abs), (0x6C, .ind)] ∧
  (∀ (addr : Addr) (s : State), exec (.jmpAbs addr) s = .next { s with pc := addr }) ∧
  ∀ (ptr : Addr) (s : State), ∃ hiAddr target : Addr, ∃ lo hi : Byte, ∃ b c : Bus,
    (s.config.jmpBug = true ∧ ptr.toNat % 256 = 255 → hiAddr.toNat = ptr.toNat - 255) ∧
    (¬ (s.config.jmpBug = true ∧ ptr.toNat % 256 = 255) → hiAddr.toNat = (ptr.toNat + 1) % 65536) ∧
    s.bus.read ptr = (lo, b) ∧ b.read hiAddr = (hi, c) ∧ target.toNat = 256 * hi.toNat + lo.toNat ∧
    exec (.jmpInd ptr) s = .next { s with pc := target, bus := c }

/-- JSR (45_control_flow R220; operands before pushes by the spec's D8): pushes PC - 1, high byte first, and jumps. -/
def Obligations.JsrPushesTheReturnAddress : Prop :=
  encodings .JSR [(0x20, .abs)] ∧
  ∀ (target : Addr) (s : State), ∃ hiAddr loAddr : Addr, ∃ hi lo : Byte,
    hiAddr.toNat = 0x100 + s.sp.toNat ∧ loAddr.toNat = 0x100 + (s.sp.toNat + 255) % 256 ∧
    256 * hi.toNat + lo.toNat = (s.pc.toNat + 65535) % 65536 ∧
    exec (.jsr target) s =
      .next { s with bus := (s.bus.write hiAddr hi).write loAddr lo, sp := s.sp - 2, pc := target }

/-- RTS (45_control_flow R221): pulls the low byte, then the high byte, and goes to the address after. -/
def Obligations.RtsPullsTheReturnAddress : Prop :=
  encodings .RTS [(0x60, .imp)] ∧
  ∀ s : State, ∃ loAddr hiAddr target : Addr, ∃ lo hi : Byte, ∃ b c : Bus,
    loAddr.toNat = 0x100 + (s.sp.toNat + 1) % 256 ∧ hiAddr.toNat = 0x100 + (s.sp.toNat + 2) % 256 ∧
    s.bus.read loAddr = (lo, b) ∧ b.read hiAddr = (hi, c) ∧
    target.toNat = (256 * hi.toNat + lo.toNat + 1) % 65536 ∧
    exec .rts s = .next { s with bus := c, sp := s.sp + 2, pc := target }

/-- RTS after JSR returns to the byte after the JSR with SP restored (45_control_flow R221, which the spec derives),
wherever SP wraps, where RAM serves the two stack bytes. -/
def Obligations.RtsReturnsFromJsr : Prop :=
  ∀ (target : Addr) (s : State), s.inv = true → s.bus.ramAt (stackAddr s.sp) = true →
    s.bus.ramAt (stackAddr (s.sp - 1)) = true →
    ∃ t u, exec (.jsr target) s = .next t ∧ t.pc = target ∧ exec .rts t = .next u ∧ u.pc = s.pc ∧ u.sp = s.sp ∧
      u.p = s.p

/-! ## Stack, trap and no-ops -/

/-- Push writes at 0x0100 + SP and then decrements SP modulo 256; pull increments SP modulo 256 and then reads, and
changes no byte of memory (46_stack_system R240, R241). -/
def Obligations.PushAndPullUseTheStackPage : Prop :=
  ∀ s : State,
    (∀ v : Byte, ∃ x : Addr, ∃ q : Byte, x.toNat = 0x100 + s.sp.toNat ∧ q.toNat = (s.sp.toNat + 255) % 256 ∧
      push v s = { s with bus := s.bus.write x v, sp := q }) ∧
    ∃ x : Addr, ∃ q : Byte, x.toNat = 0x100 + (s.sp.toNat + 1) % 256 ∧ q.toNat = (s.sp.toNat + 1) % 256 ∧
      pull s = ((s.bus.read x).1, { s with bus := (s.bus.read x).2, sp := q }) ∧
      ∀ y : Addr, s.bus.plainAt y = true → (pull s).2.bus.peek y = s.bus.peek y

/-- Stack containment (46_stack_system R242): for any sequence of pushes and pulls the written and read addresses lie in
page 0x01, memory outside that page keeps its bytes, and 256 pushes bring SP back, so that the next push overwrites the
byte of the first. -/
def Obligations.StackNeverLeavesPageOne : Prop :=
  (∀ (ops : List (Option Byte)) (s : State),
    (∀ x ∈ stackAccesses ops s, 0x100 ≤ x.toNat ∧ x.toNat ≤ 0x1FF) ∧
    ∀ x : Addr, s.bus.plainAt x = true → ¬ (0x100 ≤ x.toNat ∧ x.toNat ≤ 0x1FF) →
      (runStack ops s).bus.peek x = s.bus.peek x) ∧
  ∀ (vs : List Byte) (s : State), vs.length = 256 →
    stackAddr (runStack (vs.map some) s).sp = stackAddr s.sp

/-- PHA and PLA (46_stack_system R243, R244, supplied by the spec from general knowledge). -/
def Obligations.PhaAndPlaMoveTheAccumulator : Prop :=
  encodings .PHA [(0x48, .imp)] ∧ encodings .PLA [(0x68, .imp)] ∧
  ∀ s : State,
    (∃ x : Addr, x.toNat = 0x100 + s.sp.toNat ∧
      exec .pha s = .next { s with bus := s.bus.write x s.a, sp := s.sp - 1 }) ∧
    ∃ x : Addr, ∃ v q : Byte, ∃ b : Bus, x.toNat = 0x100 + (s.sp.toNat + 1) % 256 ∧ s.bus.read x = (v, b) ∧
      exec .pla s = .next { s with a := v, p := q, bus := b, sp := s.sp + 1 } ∧ nzOf v q ∧
      flagsKeptBut [.zero, .negative] s.p q

/-- PHP pushes P with Break and Unused forced to 1 and leaves P; PLP restores P with Unused forced to 1 and Break as
pulled (46_stack_system R245, R246). -/
def Obligations.PhpAndPlpMoveTheStatus : Prop :=
  encodings .PHP [(0x08, .imp)] ∧ encodings .PLP [(0x28, .imp)] ∧
  ∀ s : State,
    (∃ x : Addr, ∃ w : Byte, x.toNat = 0x100 + s.sp.toNat ∧ getFlag .brk w = true ∧ getFlag .unused w = true ∧
      flagsKeptBut [.brk, .unused] s.p w ∧ exec .php s = .next { s with bus := s.bus.write x w, sp := s.sp - 1 }) ∧
    ∃ x : Addr, ∃ v q : Byte, ∃ b : Bus, x.toNat = 0x100 + (s.sp.toNat + 1) % 256 ∧ s.bus.read x = (v, b) ∧
      getFlag .unused q = true ∧ flagsKeptBut [.unused] v q ∧
      exec .plp s = .next { s with p := q, bus := b, sp := s.sp + 1 }

/-- BRK, the trap entry (46_stack_system R247, 60_exceptions R276; I is set after the status push by the spec's D3 when
`brkSetsI`; the padding byte is not read by its D8). On entry PC is the BRK's address + 1. -/
def Obligations.BrkEntersTheHandler : Prop :=
  encodings .BRK [(0x00, .imp)] ∧
  ∀ s : State, ∃ hiAddr loAddr stAddr target : Addr, ∃ hi lo st q vlo vhi : Byte, ∃ b c : Bus,
    hiAddr.toNat = 0x100 + s.sp.toNat ∧ loAddr.toNat = 0x100 + (s.sp.toNat + 255) % 256 ∧
    stAddr.toNat = 0x100 + (s.sp.toNat + 254) % 256 ∧
    256 * hi.toNat + lo.toNat = (s.pc.toNat + 1) % 65536 ∧
    getFlag .brk st = true ∧ getFlag .unused st = true ∧ flagsKeptBut [.brk, .unused] s.p st ∧
    getFlag .brk q = true ∧ getFlag .interruptDisable q = (s.config.brkSetsI || getFlag .interruptDisable s.p) ∧
    flagsKeptBut [.brk, .interruptDisable] s.p q ∧
    (((s.bus.write hiAddr hi).write loAddr lo).write stAddr st).read 0xFFFE = (vlo, b) ∧ b.read 0xFFFF = (vhi, c) ∧
    target.toNat = 256 * vhi.toNat + vlo.toNat ∧
    exec .brk s = .next { s with bus := c, sp := s.sp - 3, p := q, pc := target }

/-- RTI, the trap return (46_stack_system R248, 60_exceptions R278; Unused as pulled by the spec's D5): status with
Break forced to 0, PC low, PC high, no increment. -/
def Obligations.RtiReturnsFromTheHandler : Prop :=
  encodings .RTI [(0x40, .imp)] ∧
  ∀ s : State, ∃ stAddr loAddr hiAddr target : Addr, ∃ v q lo hi : Byte, ∃ b c d : Bus,
    stAddr.toNat = 0x100 + (s.sp.toNat + 1) % 256 ∧ loAddr.toNat = 0x100 + (s.sp.toNat + 2) % 256 ∧
    hiAddr.toNat = 0x100 + (s.sp.toNat + 3) % 256 ∧
    s.bus.read stAddr = (v, b) ∧ b.read loAddr = (lo, c) ∧ c.read hiAddr = (hi, d) ∧
    getFlag .brk q = false ∧ flagsKeptBut [.brk] v q ∧ target.toNat = 256 * hi.toNat + lo.toNat ∧
    exec .rti s = .next { s with bus := d, sp := s.sp + 3, p := q, pc := target }

/-- RTI after BRK returns to the BRK's address + 2 with the status it had, Break clear and Unused set, and SP restored
(46_stack_system R248, which the spec derives), where RAM serves the frame and memory the vector. -/
def Obligations.RtiReturnsFromBrk : Prop :=
  ∀ s : State, s.inv = true → s.bus.ramAt (stackAddr s.sp) = true → s.bus.ramAt (stackAddr (s.sp - 1)) = true →
    s.bus.ramAt (stackAddr (s.sp - 2)) = true → s.bus.plainAt 0xFFFE = true → s.bus.plainAt 0xFFFF = true →
    ∃ t u, exec .brk s = .next t ∧ t.pc = word16 (s.bus.peek 0xFFFF) (s.bus.peek 0xFFFE) ∧ exec .rti t = .next u ∧
      u.pc = s.pc + 1 ∧ u.sp = s.sp ∧ getFlag .brk u.p = false ∧ getFlag .unused u.p = true ∧
      flagsKeptBut [.brk, .unused] s.p u.p ∧ u.a = s.a ∧ u.x = s.x ∧ u.y = s.y

/-- NOP does nothing beyond its fetch and costs one cycle (46_stack_system R249). -/
def Obligations.NopDoesNothing : Prop :=
  encodings .NOP [(0xEA, .imp)] ∧ ∀ s : State, exec .nop s = .next s ∧ instrCycles .nop s = 1

/-- An unrecognised opcode does nothing beyond its fetch and costs one cycle (46_stack_system R250; its length by the
spec's D21). -/
def Obligations.UnrecognisedOpcodesDoNothing : Prop :=
  ∀ (op : Byte) (s : State), exec (.unrecognised op) s = .next s ∧ instrCycles (.unrecognised op) s = 1

/-! ## Reset, host operations, cycle counts -/

/-- Reset leaves the stated values (70_reset_and_hazards R300): the registers, PC from the vector, the configuration
unchanged, and memory unchanged. -/
def Obligations.ResetLeavesTheStatedValues : Prop :=
  ∀ s : State, s.bus.fits = true → ∃ t, hostReset s = .next t ∧
    t.a = 0x00 ∧ t.x = 0x00 ∧ t.y = 0x00 ∧ t.sp = 0xFD ∧ t.p = 0x24 ∧
    t.flag .unused = true ∧ t.flag .interruptDisable = true ∧
    (∀ f : Flag, f ≠ .unused → f ≠ .interruptDisable → t.flag f = false) ∧
    t.config = s.config ∧ t.bus.shape = s.bus.shape ∧
    (∀ y : Addr, s.bus.plainAt y = true → t.bus.peek y = s.bus.peek y) ∧
    (s.bus.plainAt 0xFFFC = true → s.bus.plainAt 0xFFFD = true →
      t.pc.toNat = 256 * (s.bus.peek 0xFFFD).toNat + (s.bus.peek 0xFFFC).toNat ∧ t.bus = s.bus)

/-- Reset (70_reset_and_hazards R300; the order of the two vector reads is R301, with the spec's D18): the register
values, PC from the vector, nothing else but what the two reads do to a device. -/
def Obligations.ResetSetsTheRegisters : Prop :=
  ∀ s : State, s.bus.fits = true → ∃ pc : Addr, ∃ lo hi : Byte, ∃ b c : Bus,
    s.bus.read 0xFFFC = (lo, b) ∧ b.read 0xFFFD = (hi, c) ∧ pc.toNat = 256 * hi.toNat + lo.toNat ∧
    hostReset s = .next { a := 0x00, x := 0x00, y := 0x00, sp := 0xFD, p := 0x24, pc := pc, bus := c,
                          config := s.config, resetDone := true }

/-- `State.reset` is what reset makes of any state with the default platform and the parameters of log 4 and log 5. -/
def Obligations.ResetStateIsAResetOfTheDefaultPlatform : Prop :=
  ∀ s : State, s.bus = State.defaultBus → s.config = Config.atReset → hostReset s = .next State.reset

/-- Load (70_reset_and_hazards R306; through the bus in increasing order by the spec's D16): no byte is a failure that
writes nothing; otherwise the bytes stand at consecutive addresses up to 0xFFFF, those past it dropped, where RAM serves
them; write-ignoring memory, unmapped addresses, every other byte of memory, the bindings and every register are
kept. -/
def Obligations.LoadWritesConsecutiveBytes : Prop :=
  ∀ (start : Addr) (bytes : List Byte) (s : State), s.bus.fits = true → s.bus.wf = true →
    (bytes = [] → hostLoad start bytes s = .next (false, s)) ∧
    (bytes ≠ [] → ∃ b, hostLoad start bytes s = .next (true, { s with bus := b }) ∧
      (∀ x : Addr, ∀ v : Byte, s.bus.ramAt x = true → start.toNat ≤ x.toNat →
        bytes[x.toNat - start.toNat]? = some v → b.peek x = v) ∧
      (∀ x : Addr, s.bus.plainAt x = true → (x.toNat < start.toNat ∨ start.toNat + bytes.length ≤ x.toNat) →
        b.peek x = s.bus.peek x) ∧
      (∀ x : Addr, s.bus.plainAt x = true → s.bus.ramAt x = false → b.peek x = s.bus.peek x) ∧
      b.romContents = s.bus.romContents ∧ b.shape = s.bus.shape)

/-- Execute (70_reset_and_hazards R308, the spec's D14) on a machine that meets the invariant always answers: the state
after some number of whole steps and the cycles those steps cost; the budget is not spent before the last of them and is
spent after it, by an overshoot of less than one instruction; with no budget there is no step. -/
def Obligations.ExecuteSpendsItsBudget : Prop :=
  ∀ (n : Nat) (s : State), s.inv = true →
    ∃ k t, hostExecute n s = .next (runCycles k s, t) ∧ Sys2Proof.core.run k s = .next t ∧ t.inv = true ∧
      n ≤ runCycles k s ∧ runCycles k s ≤ n + 6 ∧ (∀ j < k, runCycles j s < n) ∧ (n = 0 → k = 0 ∧ t = s)

/-- Run until (70_reset_and_hazards R309; the check before the first step is the spec's D15): it stops exactly at the
address and at the first state there, taking no step when PC is already there; the fuel of log 14 is the only other end. -/
def Obligations.RunUntilStopsAtTheFirstArrival : Prop :=
  ∀ (fuel : Nat) (x : Addr) (s : State), s.inv = true →
    ∃ k t, k ≤ fuel ∧ hostRunUntil fuel x s = .next (t.pc == x, t) ∧ Sys2Proof.core.run k s = .next t ∧
      (t.pc ≠ x → k = fuel) ∧ ∀ j < k, ∃ u, Sys2Proof.core.run j s = .next u ∧ u.pc ≠ x

/-- A step's cycle count is at least 1 and at most 7 (70_reset_and_hazards R334, which the spec derives from the
informative table of R335). -/
def Obligations.CycleCountsLieBetweenOneAndSeven : Prop :=
  ∀ s : State, 1 ≤ stepCycles s ∧ stepCycles s ≤ 7

/-- The penalties (70_reset_and_hazards R332, R333, the spec's D13): an indexed read pays one cycle exactly when the
effective address lies in another page than the base; stores and read-modify-writes pay none; a branch pays one when
taken and one more when its target lies in another page than the next instruction. -/
def Obligations.CyclePenalties : Prop :=
  (∀ (i : Instr) (s : State) (w : MemOperand), i.operand = .memory w →
    (i.mnemonic.accessClass = .read → w.mode ∈ [.absx, .absy, .indy] →
      instrCycles i s = i.baseCycles +
        (if (baseAddr w s).1.toNat / 256 = (effectiveAddr w s).1.toNat / 256 then 0 else 1)) ∧
    (i.mnemonic.accessClass ∈ [.write, .modify, .jump] ∨ w.mode ∉ [.absx, .absy, .indy] →
      instrCycles i s = i.baseCycles)) ∧
  ∀ (i : Instr) (s t : State) (off : Byte), i.operand = .relative off → exec i s = .next t →
    (branchCondition i.mnemonic s = false → instrCycles i s = 2 ∧ t.pc = s.pc) ∧
    (branchCondition i.mnemonic s = true → t.pc = s.pc + sext16 off ∧
      instrCycles i s = if s.pc.toNat / 256 = t.pc.toNat / 256 then 3 else 4)
end

