-- ==== Sys2Proof/Laws/Bits.lean ====
section
/-!
SUPPORT. Byte order and extension as arithmetic, and the decoder's opcode map: what each kind of opcode byte says.
-/

namespace Sys2Proof

theorem word16_toNat (hi lo : Byte) : (word16 hi lo).toNat = 256 * hi.toNat + lo.toNat := by
  have := lo.isLt
  simp only [word16, BitVec.toNat_append]
  rw [← Nat.shiftLeft_add_eq_or_of_lt (by simpa using lo.isLt), Nat.shiftLeft_eq]
  omega

theorem hiByte_toNat (a : Addr) : (hiByte a).toNat = a.toNat / 256 := by
  have := a.isLt
  simp [hiByte, BitVec.extractLsb'_toNat, Nat.shiftRight_eq_div_pow]
  omega

theorem loByte_toNat (a : Addr) : (loByte a).toNat = a.toNat % 256 := by
  simp [loByte]

@[simp] theorem word16_hiByte_loByte (a : Addr) : word16 (hiByte a) (loByte a) = a := by
  apply BitVec.eq_of_toNat_eq
  rw [word16_toNat, hiByte_toNat, loByte_toNat]
  omega

@[simp] theorem hiByte_word16 (hi lo : Byte) : hiByte (word16 hi lo) = hi := by
  have := lo.isLt
  apply BitVec.eq_of_toNat_eq
  rw [hiByte_toNat, word16_toNat]
  omega

@[simp] theorem loByte_word16 (hi lo : Byte) : loByte (word16 hi lo) = lo := by
  have := lo.isLt
  apply BitVec.eq_of_toNat_eq
  rw [loByte_toNat, word16_toNat]
  omega

theorem zext16_toNat (v : Byte) : (zext16 v).toNat = v.toNat := by
  have := v.isLt
  simp [zext16]
  omega

theorem sext16_toInt (v : Byte) : (sext16 v).toInt = v.toInt := by
  simp [sext16, BitVec.toInt_signExtend_of_le]

theorem pageCrossed_eq (a b : Addr) : pageCrossed a b = decide (a.toNat / 256 ≠ b.toNat / 256) := by
  by_cases h : a.toNat / 256 = b.toNat / 256
  · have : hiByte a = hiByte b := BitVec.eq_of_toNat_eq (by rw [hiByte_toNat, hiByte_toNat, h])
    simp [pageCrossed, this, h]
  · have : hiByte a ≠ hiByte b := fun hc => h (by rw [← hiByte_toNat, ← hiByte_toNat, hc])
    simp [pageCrossed, this, h]

/-- The first address of a pointer's page, where the high byte of an indirect jump comes from (30_encoding R73). -/
theorem and_page_toNat (ptr : Addr) : (ptr &&& 0xFF00).toNat = ptr.toNat / 256 * 256 := by
  have e : ptr &&& (0xFF00 : Addr) = (ptr >>> 8) <<< 8 := by
    apply BitVec.eq_of_getLsbD_eq
    intro k hk
    have : k = 0 ∨ k = 1 ∨ k = 2 ∨ k = 3 ∨ k = 4 ∨ k = 5 ∨ k = 6 ∨ k = 7 ∨ k = 8 ∨ k = 9 ∨ k = 10 ∨ k = 11 ∨
        k = 12 ∨ k = 13 ∨ k = 14 ∨ k = 15 := by omega
    rcases this with rfl | rfl | rfl | rfl | rfl | rfl | rfl | rfl | rfl | rfl | rfl | rfl | rfl | rfl | rfl | rfl <;>
      simp
  have := ptr.isLt
  rw [e]
  simp [Nat.shiftLeft_eq, Nat.shiftRight_eq_div_pow]
  omega

/-! ### The opcode map -/

/-- What the opcode map says of an opcode byte: a listed unrecognised byte stands alone; any other byte selects a
recognised instruction whose encoding begins with it, for every operand. -/
def OpcodeMeans (op : Byte) : Format → Prop
  | .complete i => encode i = [op] ∧ i.wf = true ∧ (op ∈ unrecognisedOpcodes ↔ i = .unrecognised op)
  | .byteOperand f => op ∉ unrecognisedOpcodes ∧
      ∀ b, encode (f b) = [op, b] ∧ (f b).wf = true ∧ ∀ q, f b ≠ .unrecognised q
  | .wordOperand f => op ∉ unrecognisedOpcodes ∧
      ∀ a, encode (f a) = [op, loByte a, hiByte a] ∧ (f a).wf = true ∧ ∀ q, f a ≠ .unrecognised q

/-- The opcode map, byte by byte (30_encoding R79, R81). -/
theorem opcodeMeans_formatOf (op : Byte) : OpcodeMeans op (formatOf op) := by
  have key : ∀ n : Fin 256, OpcodeMeans (BitVec.ofFin n) (formatOf (BitVec.ofFin n)) := by
    intro n
    fin_cases n <;> first
      | exact ⟨rfl, rfl, by decide⟩
      | exact ⟨by decide, fun b => ⟨rfl, rfl, fun q => nofun⟩⟩
  exact key op.toFin

theorem instrLength_pos (op : Byte) : 1 ≤ instrLength op := by
  unfold instrLength
  cases formatOf op <;> simp

end Sys2Proof
end

