-- ==== Sys2Proof/Laws/Memory.lean ====
section
/-!
SUPPORT. The laws of memory devices and of the bus arbiter: read after write, what an access leaves alone, and that the
canonical form, the configuration check and the bindings' shape are kept.
-/

namespace Sys2Proof.Machine

@[simp] theorem Memory.read_nil (k : Nat) : Memory.read [] k = Memory.unlisted := rfl

theorem Memory.read_write_other (m : Memory) {j k : Nat} (v : Byte) (h : j ≠ k) :
    Memory.read (Memory.write m k v) j = Memory.read m j := by
  induction m with
  | nil => by_cases hv : v = Memory.unlisted <;> simp [Memory.write, Memory.read, hv, h.symm]
  | cons c m ih =>
    obtain ⟨i, w⟩ := c
    by_cases hlt : k < i
    · by_cases hv : v = Memory.unlisted <;> simp [Memory.write, Memory.read, hlt, hv, h.symm]
    · by_cases heq : k = i
      · subst heq
        by_cases hv : v = Memory.unlisted <;> simp [Memory.write, Memory.read, hv, h.symm]
      · simp [Memory.write, Memory.read, hlt, heq, ih]

theorem Memory.wfFrom_mono {lo lo' : Nat} {m : Memory} (h : Memory.wfFrom lo m = true) (hle : lo' ≤ lo) :
    Memory.wfFrom lo' m = true := by
  cases m with
  | nil => rfl
  | cons c m =>
    obtain ⟨j, v⟩ := c
    simp only [Memory.wfFrom, Bool.and_eq_true, decide_eq_true_eq] at h ⊢
    exact ⟨⟨by omega, h.1.2⟩, h.2⟩

theorem Memory.read_below {lo k : Nat} {m : Memory} (h : Memory.wfFrom lo m = true) (hk : k < lo) :
    Memory.read m k = Memory.unlisted := by
  induction m generalizing lo with
  | nil => rfl
  | cons c m ih =>
    obtain ⟨j, v⟩ := c
    simp only [Memory.wfFrom, Bool.and_eq_true, decide_eq_true_eq] at h
    have hne : j ≠ k := by omega
    simp only [Memory.read, hne, if_false]
    exact ih h.2 (by omega)

theorem Memory.read_write_same_from {lo k : Nat} {m : Memory} (v : Byte) (h : Memory.wfFrom lo m = true) :
    Memory.read (Memory.write m k v) k = v := by
  induction m generalizing lo with
  | nil => by_cases hv : v = Memory.unlisted <;> simp [Memory.write, Memory.read, hv]
  | cons c m ih =>
    obtain ⟨i, w⟩ := c
    simp only [Memory.wfFrom, Bool.and_eq_true, decide_eq_true_eq] at h
    by_cases hlt : k < i
    · by_cases hv : v = Memory.unlisted
      · have hne : i ≠ k := by omega
        have := Memory.read_below h.2 (k := k) (by omega)
        simp [Memory.write, Memory.read, hlt, hv, hne, this]
      · simp [Memory.write, Memory.read, hlt, hv]
    · by_cases heq : k = i
      · subst heq
        by_cases hv : v = Memory.unlisted
        · have := Memory.read_below h.2 (k := k) (by omega)
          simp [Memory.write, hv, this]
        · simp [Memory.write, Memory.read, hv]
      · have hne : i ≠ k := by omega
        simp only [Memory.write, hlt, heq, if_false, Memory.read, hne]
        exact ih h.2

theorem Memory.read_write_same {m : Memory} (k : Nat) (v : Byte) (h : Memory.wf m = true) :
    Memory.read (Memory.write m k v) k = v := Memory.read_write_same_from v h

theorem Memory.wfFrom_write {lo k : Nat} {m : Memory} (v : Byte) (h : Memory.wfFrom lo m = true) (hk : lo ≤ k) :
    Memory.wfFrom lo (Memory.write m k v) = true := by
  induction m generalizing lo with
  | nil => by_cases hv : v = Memory.unlisted <;> simp [Memory.write, Memory.wfFrom, hv, hk]
  | cons c m ih =>
    obtain ⟨i, w⟩ := c
    have h' := h
    simp only [Memory.wfFrom, Bool.and_eq_true, decide_eq_true_eq] at h'
    obtain ⟨⟨hlo, hw⟩, hm⟩ := h'
    by_cases hlt : k < i
    · by_cases hv : v = Memory.unlisted
      · simpa [Memory.write, hlt, hv] using h
      · have hi : k + 1 ≤ i := by omega
        simp [Memory.write, Memory.wfFrom, hlt, hv, hk, hi, hm, bne_iff_ne.mp hw]
    · by_cases heq : k = i
      · subst heq
        by_cases hv : v = Memory.unlisted
        · simpa [Memory.write, hv] using Memory.wfFrom_mono hm (by omega)
        · simp [Memory.write, Memory.wfFrom, hv, hk, hm]
      · have := ih (lo := i + 1) hm (by omega)
        simp [Memory.write, Memory.wfFrom, hlt, heq, hlo, this, bne_iff_ne.mp hw]

theorem Memory.wf_write {m : Memory} (k : Nat) (v : Byte) (h : Memory.wf m = true) :
    Memory.wf (Memory.write m k v) = true := Memory.wfFrom_write v h (Nat.zero_le k)

theorem Memory.all_write {m : Memory} {k : Nat} (v : Byte) (q : Host.Cell → Bool) (h : m.all q = true)
    (hk : q (k, v) = true) : (Memory.write m k v).all q = true := by
  induction m with
  | nil => by_cases hv : v = Memory.unlisted <;> simp [Memory.write, hv, hk]
  | cons c m ih =>
    obtain ⟨i, w⟩ := c
    simp only [List.all_cons, Bool.and_eq_true] at h
    by_cases hlt : k < i
    · by_cases hv : v = Memory.unlisted
      · simp only [Memory.write, hlt, hv, if_true, List.all_cons, Bool.and_eq_true]; exact h
      · simp only [Memory.write, hlt, hv, if_true, if_false, List.all_cons, Bool.and_eq_true]; exact ⟨hk, h⟩
    · by_cases heq : k = i
      · by_cases hv : v = Memory.unlisted
        · simpa [Memory.write, heq, hv] using h.2
        · subst heq
          simp only [Memory.write, Nat.lt_irrefl, if_false, if_true, hv, List.all_cons, Bool.and_eq_true]
          exact ⟨hk, h.2⟩
      · simp only [Memory.write, hlt, heq, if_false, List.all_cons, Bool.and_eq_true]
        exact ⟨h.1, ih h.2⟩

/-! ### Devices -/

@[simp] theorem Device.size_read (d : Device) (o : Addr) : (d.read o).2.size = d.size := by cases d <;> rfl

@[simp] theorem Device.size_write (d : Device) (o : Addr) (v : Byte) : (d.write o v).size = d.size := by
  cases d <;> rfl

@[simp] theorem Device.isMemory_read (d : Device) (o : Addr) : (d.read o).2.isMemory = d.isMemory := by
  cases d <;> rfl

@[simp] theorem Device.isMemory_write (d : Device) (o : Addr) (v : Byte) : (d.write o v).isMemory = d.isMemory := by
  cases d <;> rfl

theorem Device.read_memory {d : Device} (o : Addr) (h : d.isMemory = true) : (d.read o).2 = d := by
  cases d with
  | ram n m => rfl
  | rom n m => rfl
  | external u n st => simp [Device.isMemory] at h

theorem Device.read_write_other {d : Device} {o o' : Addr} (v : Byte) (h : d.isMemory = true) (hne : o' ≠ o) :
    ((d.write o v).read o').1 = (d.read o').1 := by
  have hn : o'.toNat ≠ o.toNat := fun hc => hne (BitVec.eq_of_toNat_eq hc)
  cases d with
  | ram n m => simpa [Device.write, Device.read] using Memory.read_write_other m v hn
  | rom n m => rfl
  | external u n st => simp [Device.isMemory] at h

theorem Device.wf_read {d : Device} (o : Addr) (h : d.wf = true) : (d.read o).2.wf = true := by
  cases d with
  | ram n m => exact h
  | rom n m => exact h
  | external u n st => rfl

theorem Device.wf_write {d : Device} {o : Addr} (v : Byte) (h : d.wf = true) (ho : o.toNat < d.size) :
    (d.write o v).wf = true := by
  cases d with
  | ram n m =>
    simp only [Device.wf, Bool.and_eq_true] at h
    simp only [Device.write, Device.wf, Bool.and_eq_true]
    exact ⟨Memory.wf_write _ v h.1, Memory.all_write v _ h.2 (by simpa [Device.size] using ho)⟩
  | rom n m => exact h
  | external u n st => rfl

/-! ### The bus arbiter -/

@[simp] theorem Binding.contains_device (b : Binding) (d : Device) (addr : Addr) :
    Binding.contains { b with device := d } addr = b.contains addr := rfl

theorem Binding.offset_lt {b : Binding} {addr : Addr} (hf : b.fits = true) (hc : b.contains addr = true) :
    (addr - b.first).toNat < b.device.size := by
  simp only [Binding.contains, Bool.and_eq_true, decide_eq_true_eq] at hc
  simp only [Binding.fits, decide_eq_true_eq] at hf
  have := hf (by omega)
  rw [BitVec.toNat_sub_of_le (by simpa [BitVec.le_def] using hc.1)]
  omega

theorem Binding.offset_ne {b : Binding} {x y : Addr} (h : x ≠ y) : x - b.first ≠ y - b.first := by
  intro hc
  exact h (by simpa using congrArg (· + b.first) hc)

@[simp] theorem Bus.read_nil (addr : Addr) : Bus.read [] addr = (0x00, []) := rfl

@[simp] theorem Bus.write_nil (addr : Addr) (v : Byte) : Bus.write [] addr v = [] := rfl

/-- The first binding that contains the address answers a read (20_memory R41). -/
theorem Bus.read_hit {b : Binding} {x : Addr} (rest : Bus) (h : b.contains x = true) :
    Bus.read (b :: rest) x =
      ((b.device.read (x - b.first)).1, { b with device := (b.device.read (x - b.first)).2 } :: rest) := by
  simp [Bus.read, h]

theorem Bus.read_miss {b : Binding} {x : Addr} (rest : Bus) (h : b.contains x = false) :
    Bus.read (b :: rest) x = ((Bus.read rest x).1, b :: (Bus.read rest x).2) := by
  simp [Bus.read, h]

/-- The first binding that contains the address takes a write (20_memory R42). -/
theorem Bus.write_hit {b : Binding} {x : Addr} (rest : Bus) (v : Byte) (h : b.contains x = true) :
    Bus.write (b :: rest) x v = { b with device := b.device.write (x - b.first) v } :: rest := by
  simp [Bus.write, h]

theorem Bus.write_miss {b : Binding} {x : Addr} (rest : Bus) (v : Byte) (h : b.contains x = false) :
    Bus.write (b :: rest) x v = b :: Bus.write rest x v := by
  simp [Bus.write, h]

theorem Bus.plainAt_cons (b : Binding) (rest : Bus) (y : Addr) :
    Bus.plainAt (b :: rest) y = if b.contains y then b.device.isMemory else Bus.plainAt rest y := by
  cases hy : b.contains y <;> simp [Bus.plainAt, Bus.serving, hy]

theorem Bus.ramAt_cons (b : Binding) (rest : Bus) (y : Addr) :
    Bus.ramAt (b :: rest) y =
      if b.contains y then (match b.device with | .ram _ _ => true | .rom _ _ => false | .external _ _ _ => false)
      else Bus.ramAt rest y := by
  cases hy : b.contains y with
  | true =>
    obtain ⟨f, l, d⟩ := b
    cases d <;> simp [Bus.ramAt, Bus.serving, hy]
  | false => simp [Bus.ramAt, Bus.serving, hy]

/-- An access leaves what serves an address a memory, or not. -/
@[simp] theorem Bus.plainAt_read (bus : Bus) (x y : Addr) : (bus.read x).2.plainAt y = bus.plainAt y := by
  induction bus with
  | nil => rfl
  | cons b rest ih =>
    cases hx : b.contains x with
    | true => simp [Bus.read_hit rest hx, Bus.plainAt_cons]
    | false => simp [Bus.read_miss rest hx, Bus.plainAt_cons, ih]

@[simp] theorem Bus.plainAt_write (bus : Bus) (x y : Addr) (v : Byte) : (bus.write x v).plainAt y = bus.plainAt y := by
  induction bus with
  | nil => rfl
  | cons b rest ih =>
    cases hx : b.contains x with
    | true => simp [Bus.write_hit rest v hx, Bus.plainAt_cons]
    | false => simp [Bus.write_miss rest v hx, Bus.plainAt_cons, ih]

@[simp] theorem Bus.ramAt_read (bus : Bus) (x y : Addr) : (bus.read x).2.ramAt y = bus.ramAt y := by
  induction bus with
  | nil => rfl
  | cons b rest ih =>
    cases hx : b.contains x with
    | true =>
      obtain ⟨f, l, d⟩ := b
      cases d <;> simp [Bus.read_hit rest hx, Bus.ramAt_cons, Device.read, Binding.contains]
    | false => simp [Bus.read_miss rest hx, Bus.ramAt_cons, ih]

@[simp] theorem Bus.ramAt_write (bus : Bus) (x y : Addr) (v : Byte) : (bus.write x v).ramAt y = bus.ramAt y := by
  induction bus with
  | nil => rfl
  | cons b rest ih =>
    cases hx : b.contains x with
    | true =>
      obtain ⟨f, l, d⟩ := b
      cases d <;> simp [Bus.write_hit rest v hx, Bus.ramAt_cons, Device.write, Binding.contains]
    | false => simp [Bus.write_miss rest v hx, Bus.ramAt_cons, ih]

theorem Bus.plainAt_of_ramAt {bus : Bus} {y : Addr} (h : bus.ramAt y = true) : bus.plainAt y = true := by
  induction bus with
  | nil => rfl
  | cons b rest ih =>
    rw [Bus.ramAt_cons] at h
    rw [Bus.plainAt_cons]
    cases hy : b.contains y with
    | true =>
      obtain ⟨f, l, d⟩ := b
      cases d <;> simp_all [Device.isMemory]
    | false => simp_all

/-- A read of an address that no device other than memory serves changes nothing (20_memory R50). -/
theorem Bus.read_plain {bus : Bus} {x : Addr} (h : bus.plainAt x = true) : (bus.read x).2 = bus := by
  induction bus with
  | nil => rfl
  | cons b rest ih =>
    rw [Bus.plainAt_cons] at h
    cases hx : b.contains x with
    | true => simp [Bus.read_hit rest hx, Device.read_memory _ (by simpa [hx] using h)]
    | false => simp [Bus.read_miss rest hx, ih (by simpa [hx] using h)]

/-- A read leaves every byte of memory as it was. -/
theorem Bus.peek_read {bus : Bus} {y : Addr} (x : Addr) (h : bus.plainAt y = true) :
    (bus.read x).2.peek y = bus.peek y := by
  induction bus with
  | nil => rfl
  | cons b rest ih =>
    rw [Bus.plainAt_cons] at h
    simp only [Bus.peek] at ih ⊢
    cases hx : b.contains x <;> cases hy : b.contains y <;> simp only [hy, if_true] at h
    · simpa [Bus.read, hx, hy] using ih (by simpa using h)
    · simp [Bus.read, hx, hy]
    · simp [Bus.read, hx, hy]
    · simp [Bus.read, hx, hy, Device.read_memory _ h]

/-- A write leaves every byte of memory at another address as it was. -/
theorem Bus.peek_write_other {bus : Bus} {x y : Addr} (v : Byte) (h : bus.plainAt y = true) (hne : y ≠ x) :
    (bus.write x v).peek y = bus.peek y := by
  induction bus with
  | nil => rfl
  | cons b rest ih =>
    rw [Bus.plainAt_cons] at h
    simp only [Bus.peek] at ih ⊢
    cases hx : b.contains x <;> cases hy : b.contains y <;> simp only [hy, if_true] at h
    · simpa [Bus.write, Bus.read, hx, hy] using ih (by simpa using h)
    · simp [Bus.write, Bus.read, hx, hy]
    · simp [Bus.write, Bus.read, hx, hy]
    · simpa [Bus.write, Bus.read, hx, hy] using Device.read_write_other v h (Binding.offset_ne hne)

/-- A write changes no byte that no RAM serves: write-ignoring memory and unmapped addresses keep what they read as
(20_memory R44, R50). -/
theorem Bus.peek_write_not_ram {bus : Bus} {y : Addr} (x : Addr) (v : Byte) (h : bus.plainAt y = true)
    (hr : bus.ramAt y = false) : (bus.write x v).peek y = bus.peek y := by
  by_cases hne : y = x
  · subst hne
    suffices bus.write y v = bus by rw [this]
    induction bus with
    | nil => rfl
    | cons b rest ih =>
      rw [Bus.plainAt_cons] at h
      rw [Bus.ramAt_cons] at hr
      cases hy : b.contains y with
      | true =>
        obtain ⟨f, l, d⟩ := b
        cases d <;> simp_all [Bus.write, Device.write, Device.isMemory]
      | false => rw [Bus.write_miss rest v hy, ih (by simpa [hy] using h) (by simpa [hy] using hr)]
  · exact Bus.peek_write_other v h hne

/-- Read after write in RAM (20_memory R47, R53). -/
theorem Bus.peek_write_same {bus : Bus} {x : Addr} (v : Byte) (h : bus.ramAt x = true) (hw : bus.wf = true) :
    (bus.write x v).peek x = v := by
  induction bus with
  | nil => simp [Bus.ramAt, Bus.serving] at h
  | cons b rest ih =>
    simp only [Bus.wf, List.all_cons, Bool.and_eq_true] at hw
    rw [Bus.ramAt_cons] at h
    simp only [Bus.peek] at ih ⊢
    cases hx : b.contains x with
    | true =>
      obtain ⟨f, l, d⟩ := b
      cases d with
      | ram n m =>
        simp only [Device.wf, Bool.and_eq_true] at hw
        simp only [Bus.write_hit rest v hx, Device.write]
        rw [Bus.read_hit rest (by simpa [Binding.contains] using hx)]
        exact Memory.read_write_same (x - f).toNat v hw.1.1
      | rom n m => simp [hx] at h
      | external u n st => simp [hx] at h
    | false =>
      simp only [Bus.write_miss rest v hx, Bus.read_miss _ hx]
      exact ih (by simpa [hx] using h) hw.2

@[simp] theorem Binding.fits_read (b : Binding) (o : Addr) :
    Binding.fits { b with device := (b.device.read o).2 } = b.fits := by simp [Binding.fits]

@[simp] theorem Binding.fits_write (b : Binding) (o : Addr) (v : Byte) :
    Binding.fits { b with device := b.device.write o v } = b.fits := by simp [Binding.fits]

/-- An access keeps the configuration check. -/
@[simp] theorem Bus.fits_read (bus : Bus) (x : Addr) : (bus.read x).2.fits = bus.fits := by
  induction bus with
  | nil => rfl
  | cons b rest ih =>
    simp only [Bus.fits] at ih ⊢
    cases hx : b.contains x with
    | true => simp [Bus.read_hit rest hx]
    | false => simp [Bus.read_miss rest hx, ih]

@[simp] theorem Bus.fits_write (bus : Bus) (x : Addr) (v : Byte) : (bus.write x v).fits = bus.fits := by
  induction bus with
  | nil => rfl
  | cons b rest ih =>
    simp only [Bus.fits] at ih ⊢
    cases hx : b.contains x with
    | true => simp [Bus.write_hit rest v hx]
    | false => simp [Bus.write_miss rest v hx, ih]

/-- An access keeps every memory in canonical form. -/
theorem Bus.wf_read {bus : Bus} (x : Addr) (h : bus.wf = true) : (bus.read x).2.wf = true := by
  induction bus with
  | nil => rfl
  | cons b rest ih =>
    have h' := h
    simp only [Bus.wf, List.all_cons, Bool.and_eq_true] at h'
    cases hx : b.contains x with
    | true =>
      rw [Bus.read_hit rest hx]
      simpa [Bus.wf] using ⟨Device.wf_read _ h'.1, by simpa using h'.2⟩
    | false =>
      rw [Bus.read_miss rest hx]
      simpa [Bus.wf] using ⟨h'.1, by simpa [Bus.wf] using ih h'.2⟩

theorem Bus.wf_write {bus : Bus} (x : Addr) (v : Byte) (hf : bus.fits = true) (h : bus.wf = true) :
    (bus.write x v).wf = true := by
  induction bus with
  | nil => rfl
  | cons b rest ih =>
    have h' := h
    simp only [Bus.wf, List.all_cons, Bool.and_eq_true] at h'
    simp only [Bus.fits, List.all_cons, Bool.and_eq_true] at hf
    cases hx : b.contains x with
    | true =>
      rw [Bus.write_hit rest v hx]
      simpa [Bus.wf] using ⟨Device.wf_write v h'.1 (Binding.offset_lt hf.1 hx), by simpa using h'.2⟩
    | false =>
      rw [Bus.write_miss rest v hx]
      simpa [Bus.wf] using ⟨h'.1, by simpa [Bus.wf] using ih hf.2 h'.2⟩

@[simp] theorem Binding.shape_read (b : Binding) (o : Addr) :
    Binding.shape { b with device := (b.device.read o).2 } = b.shape := by
  obtain ⟨f, l, d⟩ := b
  cases d <;> rfl

@[simp] theorem Binding.shape_write (b : Binding) (o : Addr) (v : Byte) :
    Binding.shape { b with device := b.device.write o v } = b.shape := by
  obtain ⟨f, l, d⟩ := b
  cases d <;> rfl

/-- An access keeps the bindings (20_memory R40). -/
@[simp] theorem Bus.shape_read (bus : Bus) (x : Addr) : (bus.read x).2.shape = bus.shape := by
  induction bus with
  | nil => rfl
  | cons b rest ih =>
    simp only [Bus.shape] at ih ⊢
    cases hx : b.contains x with
    | true => simp [Bus.read_hit rest hx]
    | false => simp [Bus.read_miss rest hx, ih]

@[simp] theorem Bus.shape_write (bus : Bus) (x : Addr) (v : Byte) : (bus.write x v).shape = bus.shape := by
  induction bus with
  | nil => rfl
  | cons b rest ih =>
    simp only [Bus.shape] at ih ⊢
    cases hx : b.contains x with
    | true => simp [Bus.write_hit rest v hx]
    | false => simp [Bus.write_miss rest v hx, ih]

/-- An access leaves the contents of write-ignoring memory alone (20_memory R50). -/
@[simp] theorem Bus.romContents_read (bus : Bus) (x : Addr) : (bus.read x).2.romContents = bus.romContents := by
  induction bus with
  | nil => rfl
  | cons b rest ih =>
    simp only [Bus.romContents] at ih ⊢
    obtain ⟨f, l, d⟩ := b
    cases hx : Binding.contains ⟨f, l, d⟩ x <;> cases d <;>
      simp [Bus.read, hx, Device.read, ih]

@[simp] theorem Bus.romContents_write (bus : Bus) (x : Addr) (v : Byte) :
    (bus.write x v).romContents = bus.romContents := by
  induction bus with
  | nil => rfl
  | cons b rest ih =>
    simp only [Bus.romContents] at ih ⊢
    obtain ⟨f, l, d⟩ := b
    cases hx : Binding.contains ⟨f, l, d⟩ x <;> cases d <;>
      simp [Bus.write, hx, Device.write, ih]

/-! ### Two reads in a row -/

theorem Bus.readPair_bus (bus : Bus) (x y : Addr) : (bus.readPair x y).2 = ((bus.read x).2.read y).2 := rfl

/-- The pair of reads of two memory addresses: the 16-bit value of the bytes there. -/
theorem Bus.readPair_word {bus : Bus} {x : Addr} (y : Addr) (h : bus.plainAt x = true) :
    (bus.readPair x y).1 = word16 (bus.peek y) (bus.peek x) := by
  simp only [Bus.readPair, Bus.peek, Bus.read_plain h]

theorem Bus.readPair_plain {bus : Bus} {x y : Addr} (hx : bus.plainAt x = true) (hy : bus.plainAt y = true) :
    (bus.readPair x y).2 = bus := by
  rw [Bus.readPair_bus, Bus.read_plain hx, Bus.read_plain hy]

end Sys2Proof.Machine
end

