-- ==== Sys2Proof/Laws/State.lean ====
section
/-!
SUPPORT. One lemma per field per shared update, true by rfl, so that no later proof unfolds a record update.
-/

namespace Sys2Proof.Machine

/-! ### fetch8 -/

@[simp] theorem fetch8_a (s : State) : (fetch8 s).2.a = s.a := rfl

@[simp] theorem fetch8_x (s : State) : (fetch8 s).2.x = s.x := rfl

@[simp] theorem fetch8_y (s : State) : (fetch8 s).2.y = s.y := rfl

@[simp] theorem fetch8_sp (s : State) : (fetch8 s).2.sp = s.sp := rfl

@[simp] theorem fetch8_p (s : State) : (fetch8 s).2.p = s.p := rfl

@[simp] theorem fetch8_pc (s : State) : (fetch8 s).2.pc = s.pc + 1 := rfl

@[simp] theorem fetch8_bus (s : State) : (fetch8 s).2.bus = (s.bus.read s.pc).2 := rfl

@[simp] theorem fetch8_config (s : State) : (fetch8 s).2.config = s.config := rfl

@[simp] theorem fetch8_resetDone (s : State) : (fetch8 s).2.resetDone = s.resetDone := rfl

@[simp] theorem fetch8_value (s : State) : (fetch8 s).1 = s.bus.peek s.pc := rfl

/-! ### push -/

@[simp] theorem push_a (v : Byte) (s : State) : (push v s).a = s.a := rfl

@[simp] theorem push_x (v : Byte) (s : State) : (push v s).x = s.x := rfl

@[simp] theorem push_y (v : Byte) (s : State) : (push v s).y = s.y := rfl

@[simp] theorem push_sp (v : Byte) (s : State) : (push v s).sp = s.sp - 1 := rfl

@[simp] theorem push_p (v : Byte) (s : State) : (push v s).p = s.p := rfl

@[simp] theorem push_pc (v : Byte) (s : State) : (push v s).pc = s.pc := rfl

@[simp] theorem push_bus (v : Byte) (s : State) : (push v s).bus = s.bus.write (stackAddr s.sp) v := rfl

@[simp] theorem push_config (v : Byte) (s : State) : (push v s).config = s.config := rfl

@[simp] theorem push_resetDone (v : Byte) (s : State) : (push v s).resetDone = s.resetDone := rfl

/-! ### pull -/

@[simp] theorem pull_a (s : State) : (pull s).2.a = s.a := rfl

@[simp] theorem pull_x (s : State) : (pull s).2.x = s.x := rfl

@[simp] theorem pull_y (s : State) : (pull s).2.y = s.y := rfl

@[simp] theorem pull_sp (s : State) : (pull s).2.sp = s.sp + 1 := rfl

@[simp] theorem pull_p (s : State) : (pull s).2.p = s.p := rfl

@[simp] theorem pull_pc (s : State) : (pull s).2.pc = s.pc := rfl

@[simp] theorem pull_bus (s : State) : (pull s).2.bus = (s.bus.read (stackAddr (s.sp + 1))).2 := rfl

@[simp] theorem pull_config (s : State) : (pull s).2.config = s.config := rfl

@[simp] theorem pull_resetDone (s : State) : (pull s).2.resetDone = s.resetDone := rfl

@[simp] theorem pull_value (s : State) : (pull s).1 = s.bus.peek (stackAddr (s.sp + 1)) := rfl

/-! ### pushWord -/

@[simp] theorem pushWord_a (w : Addr) (s : State) : (pushWord w s).a = s.a := rfl

@[simp] theorem pushWord_x (w : Addr) (s : State) : (pushWord w s).x = s.x := rfl

@[simp] theorem pushWord_y (w : Addr) (s : State) : (pushWord w s).y = s.y := rfl

@[simp] theorem pushWord_sp (w : Addr) (s : State) : (pushWord w s).sp = s.sp - 1 - 1 := rfl

@[simp] theorem pushWord_p (w : Addr) (s : State) : (pushWord w s).p = s.p := rfl

@[simp] theorem pushWord_pc (w : Addr) (s : State) : (pushWord w s).pc = s.pc := rfl

@[simp] theorem pushWord_bus (w : Addr) (s : State) : (pushWord w s).bus = (s.bus.write (stackAddr s.sp) (hiByte w)).write (stackAddr (s.sp - 1)) (loByte w) := rfl

@[simp] theorem pushWord_config (w : Addr) (s : State) : (pushWord w s).config = s.config := rfl

@[simp] theorem pushWord_resetDone (w : Addr) (s : State) : (pushWord w s).resetDone = s.resetDone := rfl

/-! ### pullWord -/

@[simp] theorem pullWord_a (s : State) : (pullWord s).2.a = s.a := rfl

@[simp] theorem pullWord_x (s : State) : (pullWord s).2.x = s.x := rfl

@[simp] theorem pullWord_y (s : State) : (pullWord s).2.y = s.y := rfl

@[simp] theorem pullWord_sp (s : State) : (pullWord s).2.sp = s.sp + 1 + 1 := rfl

@[simp] theorem pullWord_p (s : State) : (pullWord s).2.p = s.p := rfl

@[simp] theorem pullWord_pc (s : State) : (pullWord s).2.pc = s.pc := rfl

@[simp] theorem pullWord_bus (s : State) : (pullWord s).2.bus = ((s.bus.read (stackAddr (s.sp + 1))).2.read (stackAddr (s.sp + 1 + 1))).2 := rfl

@[simp] theorem pullWord_config (s : State) : (pullWord s).2.config = s.config := rfl

@[simp] theorem pullWord_resetDone (s : State) : (pullWord s).2.resetDone = s.resetDone := rfl

@[simp] theorem pullWord_value (s : State) : (pullWord s).1 = word16 ((s.bus.read (stackAddr (s.sp + 1))).2.peek (stackAddr (s.sp + 1 + 1)))
      (s.bus.peek (stackAddr (s.sp + 1))) := rfl

/-! ### withFlag -/

@[simp] theorem withFlag_a (f : Flag) (v : Bool) (s : State) : (s.withFlag f v).a = s.a := rfl

@[simp] theorem withFlag_x (f : Flag) (v : Bool) (s : State) : (s.withFlag f v).x = s.x := rfl

@[simp] theorem withFlag_y (f : Flag) (v : Bool) (s : State) : (s.withFlag f v).y = s.y := rfl

@[simp] theorem withFlag_sp (f : Flag) (v : Bool) (s : State) : (s.withFlag f v).sp = s.sp := rfl

@[simp] theorem withFlag_p (f : Flag) (v : Bool) (s : State) : (s.withFlag f v).p = setFlag f v s.p := rfl

@[simp] theorem withFlag_pc (f : Flag) (v : Bool) (s : State) : (s.withFlag f v).pc = s.pc := rfl

@[simp] theorem withFlag_bus (f : Flag) (v : Bool) (s : State) : (s.withFlag f v).bus = s.bus := rfl

@[simp] theorem withFlag_config (f : Flag) (v : Bool) (s : State) : (s.withFlag f v).config = s.config := rfl

@[simp] theorem withFlag_resetDone (f : Flag) (v : Bool) (s : State) : (s.withFlag f v).resetDone = s.resetDone := rfl

/-! ### setA -/

@[simp] theorem setA_a (r : Byte × Byte) (s : State) : (setA r s).a = r.1 := rfl

@[simp] theorem setA_x (r : Byte × Byte) (s : State) : (setA r s).x = s.x := rfl

@[simp] theorem setA_y (r : Byte × Byte) (s : State) : (setA r s).y = s.y := rfl

@[simp] theorem setA_sp (r : Byte × Byte) (s : State) : (setA r s).sp = s.sp := rfl

@[simp] theorem setA_p (r : Byte × Byte) (s : State) : (setA r s).p = r.2 := rfl

@[simp] theorem setA_pc (r : Byte × Byte) (s : State) : (setA r s).pc = s.pc := rfl

@[simp] theorem setA_bus (r : Byte × Byte) (s : State) : (setA r s).bus = s.bus := rfl

@[simp] theorem setA_config (r : Byte × Byte) (s : State) : (setA r s).config = s.config := rfl

@[simp] theorem setA_resetDone (r : Byte × Byte) (s : State) : (setA r s).resetDone = s.resetDone := rfl

/-! ### setX -/

@[simp] theorem setX_a (r : Byte × Byte) (s : State) : (setX r s).a = s.a := rfl

@[simp] theorem setX_x (r : Byte × Byte) (s : State) : (setX r s).x = r.1 := rfl

@[simp] theorem setX_y (r : Byte × Byte) (s : State) : (setX r s).y = s.y := rfl

@[simp] theorem setX_sp (r : Byte × Byte) (s : State) : (setX r s).sp = s.sp := rfl

@[simp] theorem setX_p (r : Byte × Byte) (s : State) : (setX r s).p = r.2 := rfl

@[simp] theorem setX_pc (r : Byte × Byte) (s : State) : (setX r s).pc = s.pc := rfl

@[simp] theorem setX_bus (r : Byte × Byte) (s : State) : (setX r s).bus = s.bus := rfl

@[simp] theorem setX_config (r : Byte × Byte) (s : State) : (setX r s).config = s.config := rfl

@[simp] theorem setX_resetDone (r : Byte × Byte) (s : State) : (setX r s).resetDone = s.resetDone := rfl

/-! ### setY -/

@[simp] theorem setY_a (r : Byte × Byte) (s : State) : (setY r s).a = s.a := rfl

@[simp] theorem setY_x (r : Byte × Byte) (s : State) : (setY r s).x = s.x := rfl

@[simp] theorem setY_y (r : Byte × Byte) (s : State) : (setY r s).y = r.1 := rfl

@[simp] theorem setY_sp (r : Byte × Byte) (s : State) : (setY r s).sp = s.sp := rfl

@[simp] theorem setY_p (r : Byte × Byte) (s : State) : (setY r s).p = r.2 := rfl

@[simp] theorem setY_pc (r : Byte × Byte) (s : State) : (setY r s).pc = s.pc := rfl

@[simp] theorem setY_bus (r : Byte × Byte) (s : State) : (setY r s).bus = s.bus := rfl

@[simp] theorem setY_config (r : Byte × Byte) (s : State) : (setY r s).config = s.config := rfl

@[simp] theorem setY_resetDone (r : Byte × Byte) (s : State) : (setY r s).resetDone = s.resetDone := rfl

/-! ### loadBreakVector -/

@[simp] theorem loadBreakVector_a (s : State) : (loadBreakVector s).a = s.a := rfl

@[simp] theorem loadBreakVector_x (s : State) : (loadBreakVector s).x = s.x := rfl

@[simp] theorem loadBreakVector_y (s : State) : (loadBreakVector s).y = s.y := rfl

@[simp] theorem loadBreakVector_sp (s : State) : (loadBreakVector s).sp = s.sp := rfl

@[simp] theorem loadBreakVector_p (s : State) : (loadBreakVector s).p = s.p := rfl

@[simp] theorem loadBreakVector_pc (s : State) : (loadBreakVector s).pc = (s.bus.readPair 0xFFFE 0xFFFF).1 := rfl

@[simp] theorem loadBreakVector_bus (s : State) : (loadBreakVector s).bus = (s.bus.readPair 0xFFFE 0xFFFF).2 := rfl

@[simp] theorem loadBreakVector_config (s : State) : (loadBreakVector s).config = s.config := rfl

@[simp] theorem loadBreakVector_resetDone (s : State) : (loadBreakVector s).resetDone = s.resetDone := rfl

/-! ### storeByte -/

@[simp] theorem storeByte_a (m : MemOperand) (v : Byte) (s : State) : (storeByte m v s).a = s.a := rfl

@[simp] theorem storeByte_x (m : MemOperand) (v : Byte) (s : State) : (storeByte m v s).x = s.x := rfl

@[simp] theorem storeByte_y (m : MemOperand) (v : Byte) (s : State) : (storeByte m v s).y = s.y := rfl

@[simp] theorem storeByte_sp (m : MemOperand) (v : Byte) (s : State) : (storeByte m v s).sp = s.sp := rfl

@[simp] theorem storeByte_p (m : MemOperand) (v : Byte) (s : State) : (storeByte m v s).p = s.p := rfl

@[simp] theorem storeByte_pc (m : MemOperand) (v : Byte) (s : State) : (storeByte m v s).pc = s.pc := rfl

@[simp] theorem storeByte_bus (m : MemOperand) (v : Byte) (s : State) : (storeByte m v s).bus = (effectiveAddr m s).2.write (effectiveAddr m s).1 v := rfl

@[simp] theorem storeByte_config (m : MemOperand) (v : Byte) (s : State) : (storeByte m v s).config = s.config := rfl

@[simp] theorem storeByte_resetDone (m : MemOperand) (v : Byte) (s : State) : (storeByte m v s).resetDone = s.resetDone := rfl

/-! ### modifyByte -/

@[simp] theorem modifyByte_a (f : Byte → Byte → Byte × Byte) (m : MemOperand) (s : State) : (modifyByte f m s).a = s.a := rfl

@[simp] theorem modifyByte_x (f : Byte → Byte → Byte × Byte) (m : MemOperand) (s : State) : (modifyByte f m s).x = s.x := rfl

@[simp] theorem modifyByte_y (f : Byte → Byte → Byte × Byte) (m : MemOperand) (s : State) : (modifyByte f m s).y = s.y := rfl

@[simp] theorem modifyByte_sp (f : Byte → Byte → Byte × Byte) (m : MemOperand) (s : State) : (modifyByte f m s).sp = s.sp := rfl

@[simp] theorem modifyByte_p (f : Byte → Byte → Byte × Byte) (m : MemOperand) (s : State) : (modifyByte f m s).p = (f (loadByte m s).1 s.p).2 := rfl

@[simp] theorem modifyByte_pc (f : Byte → Byte → Byte × Byte) (m : MemOperand) (s : State) : (modifyByte f m s).pc = s.pc := rfl

@[simp] theorem modifyByte_bus (f : Byte → Byte → Byte × Byte) (m : MemOperand) (s : State) : (modifyByte f m s).bus = (loadByte m s).2.write (effectiveAddr m s).1 (f (loadByte m s).1 s.p).1 := rfl

@[simp] theorem modifyByte_config (f : Byte → Byte → Byte × Byte) (m : MemOperand) (s : State) : (modifyByte f m s).config = s.config := rfl

@[simp] theorem modifyByte_resetDone (f : Byte → Byte → Byte × Byte) (m : MemOperand) (s : State) : (modifyByte f m s).resetDone = s.resetDone := rfl

/-! ### modifyA -/

@[simp] theorem modifyA_a (f : Byte → Byte → Byte × Byte) (s : State) : (modifyA f s).a = (f s.a s.p).1 := rfl

@[simp] theorem modifyA_x (f : Byte → Byte → Byte × Byte) (s : State) : (modifyA f s).x = s.x := rfl

@[simp] theorem modifyA_y (f : Byte → Byte → Byte × Byte) (s : State) : (modifyA f s).y = s.y := rfl

@[simp] theorem modifyA_sp (f : Byte → Byte → Byte × Byte) (s : State) : (modifyA f s).sp = s.sp := rfl

@[simp] theorem modifyA_p (f : Byte → Byte → Byte × Byte) (s : State) : (modifyA f s).p = (f s.a s.p).2 := rfl

@[simp] theorem modifyA_pc (f : Byte → Byte → Byte × Byte) (s : State) : (modifyA f s).pc = s.pc := rfl

@[simp] theorem modifyA_bus (f : Byte → Byte → Byte × Byte) (s : State) : (modifyA f s).bus = s.bus := rfl

@[simp] theorem modifyA_config (f : Byte → Byte → Byte × Byte) (s : State) : (modifyA f s).config = s.config := rfl

@[simp] theorem modifyA_resetDone (f : Byte → Byte → Byte × Byte) (s : State) : (modifyA f s).resetDone = s.resetDone := rfl

/-! ### accumulate -/

@[simp] theorem accumulate_a (f : Byte → Byte → Byte → Byte × Byte) (v : Byte × Bus) (s : State) : (accumulate f v s).a = (f s.a v.1 s.p).1 := rfl

@[simp] theorem accumulate_x (f : Byte → Byte → Byte → Byte × Byte) (v : Byte × Bus) (s : State) : (accumulate f v s).x = s.x := rfl

@[simp] theorem accumulate_y (f : Byte → Byte → Byte → Byte × Byte) (v : Byte × Bus) (s : State) : (accumulate f v s).y = s.y := rfl

@[simp] theorem accumulate_sp (f : Byte → Byte → Byte → Byte × Byte) (v : Byte × Bus) (s : State) : (accumulate f v s).sp = s.sp := rfl

@[simp] theorem accumulate_p (f : Byte → Byte → Byte → Byte × Byte) (v : Byte × Bus) (s : State) : (accumulate f v s).p = (f s.a v.1 s.p).2 := rfl

@[simp] theorem accumulate_pc (f : Byte → Byte → Byte → Byte × Byte) (v : Byte × Bus) (s : State) : (accumulate f v s).pc = s.pc := rfl

@[simp] theorem accumulate_bus (f : Byte → Byte → Byte → Byte × Byte) (v : Byte × Bus) (s : State) : (accumulate f v s).bus = v.2 := rfl

@[simp] theorem accumulate_config (f : Byte → Byte → Byte → Byte × Byte) (v : Byte × Bus) (s : State) : (accumulate f v s).config = s.config := rfl

@[simp] theorem accumulate_resetDone (f : Byte → Byte → Byte → Byte × Byte) (v : Byte × Bus) (s : State) : (accumulate f v s).resetDone = s.resetDone := rfl

/-! ### test -/

@[simp] theorem test_a (f : Byte → Byte → Byte) (v : Byte × Bus) (s : State) : (test f v s).a = s.a := rfl

@[simp] theorem test_x (f : Byte → Byte → Byte) (v : Byte × Bus) (s : State) : (test f v s).x = s.x := rfl

@[simp] theorem test_y (f : Byte → Byte → Byte) (v : Byte × Bus) (s : State) : (test f v s).y = s.y := rfl

@[simp] theorem test_sp (f : Byte → Byte → Byte) (v : Byte × Bus) (s : State) : (test f v s).sp = s.sp := rfl

@[simp] theorem test_p (f : Byte → Byte → Byte) (v : Byte × Bus) (s : State) : (test f v s).p = f v.1 s.p := rfl

@[simp] theorem test_pc (f : Byte → Byte → Byte) (v : Byte × Bus) (s : State) : (test f v s).pc = s.pc := rfl

@[simp] theorem test_bus (f : Byte → Byte → Byte) (v : Byte × Bus) (s : State) : (test f v s).bus = v.2 := rfl

@[simp] theorem test_config (f : Byte → Byte → Byte) (v : Byte × Bus) (s : State) : (test f v s).config = s.config := rfl

@[simp] theorem test_resetDone (f : Byte → Byte → Byte) (v : Byte × Bus) (s : State) : (test f v s).resetDone = s.resetDone := rfl

/-! ### loadA -/

@[simp] theorem loadA_a (v : Byte × Bus) (s : State) : (loadA v s).a = v.1 := rfl

@[simp] theorem loadA_x (v : Byte × Bus) (s : State) : (loadA v s).x = s.x := rfl

@[simp] theorem loadA_y (v : Byte × Bus) (s : State) : (loadA v s).y = s.y := rfl

@[simp] theorem loadA_sp (v : Byte × Bus) (s : State) : (loadA v s).sp = s.sp := rfl

@[simp] theorem loadA_p (v : Byte × Bus) (s : State) : (loadA v s).p = setNZ v.1 s.p := rfl

@[simp] theorem loadA_pc (v : Byte × Bus) (s : State) : (loadA v s).pc = s.pc := rfl

@[simp] theorem loadA_bus (v : Byte × Bus) (s : State) : (loadA v s).bus = v.2 := rfl

@[simp] theorem loadA_config (v : Byte × Bus) (s : State) : (loadA v s).config = s.config := rfl

@[simp] theorem loadA_resetDone (v : Byte × Bus) (s : State) : (loadA v s).resetDone = s.resetDone := rfl

/-! ### loadX -/

@[simp] theorem loadX_a (v : Byte × Bus) (s : State) : (loadX v s).a = s.a := rfl

@[simp] theorem loadX_x (v : Byte × Bus) (s : State) : (loadX v s).x = v.1 := rfl

@[simp] theorem loadX_y (v : Byte × Bus) (s : State) : (loadX v s).y = s.y := rfl

@[simp] theorem loadX_sp (v : Byte × Bus) (s : State) : (loadX v s).sp = s.sp := rfl

@[simp] theorem loadX_p (v : Byte × Bus) (s : State) : (loadX v s).p = setNZ v.1 s.p := rfl

@[simp] theorem loadX_pc (v : Byte × Bus) (s : State) : (loadX v s).pc = s.pc := rfl

@[simp] theorem loadX_bus (v : Byte × Bus) (s : State) : (loadX v s).bus = v.2 := rfl

@[simp] theorem loadX_config (v : Byte × Bus) (s : State) : (loadX v s).config = s.config := rfl

@[simp] theorem loadX_resetDone (v : Byte × Bus) (s : State) : (loadX v s).resetDone = s.resetDone := rfl

/-! ### loadY -/

@[simp] theorem loadY_a (v : Byte × Bus) (s : State) : (loadY v s).a = s.a := rfl

@[simp] theorem loadY_x (v : Byte × Bus) (s : State) : (loadY v s).x = s.x := rfl

@[simp] theorem loadY_y (v : Byte × Bus) (s : State) : (loadY v s).y = v.1 := rfl

@[simp] theorem loadY_sp (v : Byte × Bus) (s : State) : (loadY v s).sp = s.sp := rfl

@[simp] theorem loadY_p (v : Byte × Bus) (s : State) : (loadY v s).p = setNZ v.1 s.p := rfl

@[simp] theorem loadY_pc (v : Byte × Bus) (s : State) : (loadY v s).pc = s.pc := rfl

@[simp] theorem loadY_bus (v : Byte × Bus) (s : State) : (loadY v s).bus = v.2 := rfl

@[simp] theorem loadY_config (v : Byte × Bus) (s : State) : (loadY v s).config = s.config := rfl

@[simp] theorem loadY_resetDone (v : Byte × Bus) (s : State) : (loadY v s).resetDone = s.resetDone := rfl

/-! ### branchIf -/

/-- A branch writes PC and nothing else. -/
theorem branchIf_eq (c : Bool) (off : Byte) (s : State) :
    branchIf c off s = { s with pc := if c then s.pc + sext16 off else s.pc } := by
  cases c <;> rfl

/-! ### The trap entry and its return -/

/-- Everything the trap entry does (46_stack_system R247). -/
theorem takeBreak_eq (s : State) :
    takeBreak s =
      loadBreakVector
        { push (pushedStatus (setFlag .brk true s.p)) (pushWord (s.pc + 1) s) with
          p := if s.config.brkSetsI then setFlag .interruptDisable true (setFlag .brk true s.p)
            else setFlag .brk true s.p } := by
  unfold takeBreak State.brkSetsI
  cases s.config.brkSetsI <;> rfl

@[simp] theorem takeBreak_a (s : State) : (takeBreak s).a = s.a := by rw [takeBreak_eq]; rfl

@[simp] theorem takeBreak_x (s : State) : (takeBreak s).x = s.x := by rw [takeBreak_eq]; rfl

@[simp] theorem takeBreak_y (s : State) : (takeBreak s).y = s.y := by rw [takeBreak_eq]; rfl

@[simp] theorem takeBreak_sp (s : State) : (takeBreak s).sp = s.sp - 1 - 1 - 1 := by rw [takeBreak_eq]; rfl

@[simp] theorem takeBreak_p (s : State) :
    (takeBreak s).p =
      if s.config.brkSetsI then setFlag .interruptDisable true (setFlag .brk true s.p) else setFlag .brk true s.p := by
  rw [takeBreak_eq]; rfl

@[simp] theorem takeBreak_config (s : State) : (takeBreak s).config = s.config := by rw [takeBreak_eq]; rfl

@[simp] theorem takeBreak_resetDone (s : State) : (takeBreak s).resetDone = s.resetDone := by rw [takeBreak_eq]; rfl

/-- The bus the vector is read on: the return address and the status are pushed. -/
theorem takeBreak_bus (s : State) :
    (takeBreak s).bus =
      ((((s.bus.write (stackAddr s.sp) (hiByte (s.pc + 1))).write (stackAddr (s.sp - 1)) (loByte (s.pc + 1))).write
        (stackAddr (s.sp - 1 - 1)) (pushedStatus (setFlag .brk true s.p))).readPair 0xFFFE 0xFFFF).2 := by
  rw [takeBreak_eq]; rfl

theorem takeBreak_pc (s : State) :
    (takeBreak s).pc =
      ((((s.bus.write (stackAddr s.sp) (hiByte (s.pc + 1))).write (stackAddr (s.sp - 1)) (loByte (s.pc + 1))).write
        (stackAddr (s.sp - 1 - 1)) (pushedStatus (setFlag .brk true s.p))).readPair 0xFFFE 0xFFFF).1 := by
  rw [takeBreak_eq]; rfl

/-- Everything the trap return does (46_stack_system R248). -/
theorem returnFromBreak_eq (s : State) :
    returnFromBreak s =
      { (pullWord (pull s).2).2 with p := statusFromRti (pull s).1, pc := (pullWord (pull s).2).1 } := rfl

end Sys2Proof.Machine
end

