-- ==== Sys2Proof/Laws/Ops.lean ====
section
/-!
SUPPORT. Once for each shared operation, everything it can do to the bus: the bindings, the configuration check, the
canonical form and the write-ignoring memories are kept; a resolver or an operand read keeps every byte of memory.
-/

namespace Sys2Proof.Machine

/-- What any sequence of accesses keeps of a bus. -/
structure Bus.Evolves (b c : Bus) : Prop where
  fits : c.fits = b.fits
  wf : b.fits = true → b.wf = true → c.wf = true
  shape : c.shape = b.shape
  rom : c.romContents = b.romContents
  plain : ∀ y : Addr, c.plainAt y = b.plainAt y
  ram : ∀ y : Addr, c.ramAt y = b.ramAt y

/-- What any sequence of reads keeps of a bus: all of the above, and every byte of memory. -/
structure Bus.ReadsOnly (b c : Bus) : Prop extends Bus.Evolves b c where
  peek : ∀ y : Addr, b.plainAt y = true → c.peek y = b.peek y

theorem Bus.Evolves.refl (b : Bus) : b.Evolves b := ⟨rfl, fun _ h => h, rfl, rfl, fun _ => rfl, fun _ => rfl⟩

theorem Bus.Evolves.trans {b c d : Bus} (h : b.Evolves c) (k : c.Evolves d) : b.Evolves d where
  fits := k.fits.trans h.fits
  wf hf hw := k.wf (h.fits.trans hf) (h.wf hf hw)
  shape := k.shape.trans h.shape
  rom := k.rom.trans h.rom
  plain y := (k.plain y).trans (h.plain y)
  ram y := (k.ram y).trans (h.ram y)

theorem Bus.ReadsOnly.refl (b : Bus) : b.ReadsOnly b := ⟨Bus.Evolves.refl b, fun _ _ => rfl⟩

theorem Bus.ReadsOnly.trans {b c d : Bus} (h : b.ReadsOnly c) (k : c.ReadsOnly d) : b.ReadsOnly d where
  toEvolves := h.toEvolves.trans k.toEvolves
  peek y hy := (k.peek y ((h.plain y).trans hy)).trans (h.peek y hy)

theorem Bus.readsOnly_read (b : Bus) (x : Addr) : b.ReadsOnly (b.read x).2 where
  fits := Bus.fits_read b x
  wf _ hw := Bus.wf_read x hw
  shape := Bus.shape_read b x
  rom := Bus.romContents_read b x
  plain y := Bus.plainAt_read b x y
  ram y := Bus.ramAt_read b x y
  peek _ hy := Bus.peek_read x hy

theorem Bus.evolves_write (b : Bus) (x : Addr) (v : Byte) : b.Evolves (b.write x v) where
  fits := Bus.fits_write b x v
  wf hf hw := Bus.wf_write x v hf hw
  shape := Bus.shape_write b x v
  rom := Bus.romContents_write b x v
  plain y := Bus.plainAt_write b x y v
  ram y := Bus.ramAt_write b x y v

theorem Bus.readsOnly_readPair (b : Bus) (x y : Addr) : b.ReadsOnly (b.readPair x y).2 :=
  (b.readsOnly_read x).trans (Bus.readsOnly_read _ y)

/-- A resolver reads and never writes (20_memory R58, C5). -/
theorem effectiveAddr_readsOnly (m : MemOperand) (s : State) : s.bus.ReadsOnly (effectiveAddr m s).2 := by
  cases m <;> first | exact Bus.ReadsOnly.refl _ | exact Bus.readsOnly_readPair _ _ _

theorem loadByte_readsOnly (m : MemOperand) (s : State) : s.bus.ReadsOnly (loadByte m s).2 :=
  (effectiveAddr_readsOnly m s).trans (Bus.readsOnly_read _ _)

theorem indirectTarget_readsOnly (ptr : Addr) (s : State) : s.bus.ReadsOnly (indirectTarget ptr s).2 :=
  Bus.readsOnly_readPair _ _ _

theorem fetch8_readsOnly (s : State) : s.bus.ReadsOnly (fetch8 s).2.bus := Bus.readsOnly_read _ _

theorem pull_readsOnly (s : State) : s.bus.ReadsOnly (pull s).2.bus := Bus.readsOnly_read _ _

theorem pullWord_readsOnly (s : State) : s.bus.ReadsOnly (pullWord s).2.bus :=
  (pull_readsOnly s).trans (pull_readsOnly _)

theorem push_evolves (v : Byte) (s : State) : s.bus.Evolves (push v s).bus := Bus.evolves_write _ _ _

theorem pushWord_evolves (w : Addr) (s : State) : s.bus.Evolves (pushWord w s).bus :=
  (push_evolves _ s).trans (push_evolves _ _)

/-- A host load keeps what any sequence of writes keeps. -/
theorem loadBytes_evolves (n : Nat) (vs : List Byte) (b : Bus) : b.Evolves (loadBytes n vs b) := by
  induction vs generalizing n b with
  | nil => exact .refl b
  | cons v vs ih =>
    unfold loadBytes
    split
    · exact .refl b
    · exact (Bus.evolves_write b _ v).trans (ih _ _)

theorem storeByte_evolves (m : MemOperand) (v : Byte) (s : State) : s.bus.Evolves (storeByte m v s).bus :=
  (effectiveAddr_readsOnly m s).toEvolves.trans (Bus.evolves_write _ _ _)

theorem modifyByte_evolves (f : Byte → Byte → Byte × Byte) (m : MemOperand) (s : State) :
    s.bus.Evolves (modifyByte f m s).bus :=
  (loadByte_readsOnly m s).toEvolves.trans (Bus.evolves_write _ _ _)

theorem loadBreakVector_readsOnly (s : State) : s.bus.ReadsOnly (loadBreakVector s).bus :=
  Bus.readsOnly_readPair _ _ _

theorem takeBreak_evolves (s : State) : s.bus.Evolves (takeBreak s).bus := by
  rw [takeBreak_eq]
  refine Bus.Evolves.trans ?_ (loadBreakVector_readsOnly _).toEvolves
  exact (pushWord_evolves (s.pc + 1) s).trans
    (push_evolves (pushedStatus (setFlag .brk true s.p)) (pushWord (s.pc + 1) s))

theorem returnFromBreak_readsOnly (s : State) : s.bus.ReadsOnly (returnFromBreak s).bus :=
  (pull_readsOnly s).trans (pullWord_readsOnly _)

theorem fetchOperand_readsOnly (f : Format) (s : State) : s.bus.ReadsOnly (fetchOperand f s).2.bus := by
  cases f with
  | complete i => exact Bus.ReadsOnly.refl _
  | byteOperand i => exact fetch8_readsOnly s
  | wordOperand i => exact (fetch8_readsOnly s).trans (fetch8_readsOnly _)

/-- Fetching an instruction keeps every byte of memory. -/
theorem fetchInstr_readsOnly (s : State) : s.bus.ReadsOnly (fetchInstr s).2.bus :=
  (fetch8_readsOnly s).trans (fetchOperand_readsOnly _ _)

theorem fetchOperand_eq (f : Format) (s : State) :
    (fetchOperand f s).2 = { s with pc := (fetchOperand f s).2.pc, bus := (fetchOperand f s).2.bus } := by
  cases f <;> rfl

/-- Fetching an instruction writes PC and the bus only. -/
theorem fetchInstr_eq (s : State) :
    (fetchInstr s).2 = { s with pc := (fetchInstr s).2.pc, bus := (fetchInstr s).2.bus } :=
  fetchOperand_eq (formatOf (fetch8 s).1) (fetch8 s).2

@[simp] theorem fetchInstr_config (s : State) : (fetchInstr s).2.config = s.config := by rw [fetchInstr_eq]

@[simp] theorem fetchInstr_resetDone (s : State) : (fetchInstr s).2.resetDone = s.resetDone := by rw [fetchInstr_eq]

/-- `step` is fetch and then `exec`, once the machine is reset and its bus configuration is accepted. -/
theorem step_ready {s : State} (hr : s.resetDone = true) (hf : s.bus.fits = true) :
    step s = exec (fetchInstr s).1 (fetchInstr s).2 := by
  simp [step, hr, hf]

/-- A step that answers a next state ran an instruction on an accepted configuration. -/
theorem step_next {s t : State} (h : step s = .next t) :
    s.resetDone = true ∧ s.bus.fits = true ∧ exec (fetchInstr s).1 (fetchInstr s).2 = .next t := by
  unfold step at h
  cases hr : s.resetDone <;> simp [hr] at h
  cases hf : s.bus.fits <;> simp [hf] at h
  exact ⟨rfl, rfl, h⟩

/-- The stack address lies in page 0x01 (46_stack_system R242). -/
theorem stackAddr_toNat (sp : Byte) : (stackAddr sp).toNat = 0x100 + sp.toNat := by
  have := sp.isLt
  simp [stackAddr, zext16, BitVec.toNat_add]
  omega

theorem stackAddr_inj {p q : Byte} (h : stackAddr p = stackAddr q) : p = q := by
  have := congrArg BitVec.toNat h
  rw [stackAddr_toNat, stackAddr_toNat] at this
  exact BitVec.eq_of_toNat_eq (by omega)

theorem stackAddr_ne {p q : Byte} (h : p ≠ q) : stackAddr p ≠ stackAddr q := fun hc => h (stackAddr_inj hc)

/-- A pull of a byte of memory only moves SP. -/
theorem pull_plain {s : State} (h : s.bus.plainAt (stackAddr (s.sp + 1)) = true) :
    pull s = (s.bus.peek (stackAddr (s.sp + 1)), { s with sp := s.sp + 1 }) := by
  simp only [pull, Bus.peek, Bus.read_plain h]

/-- The byte a push leaves, where RAM serves the stack slot. -/
theorem push_peek_same {s : State} (v : Byte) (h : s.bus.ramAt (stackAddr s.sp) = true) (hw : s.bus.wf = true) :
    (push v s).bus.peek (stackAddr s.sp) = v := Bus.peek_write_same v h hw

theorem push_peek_other {s : State} {x : Addr} (v : Byte) (h : s.bus.plainAt x = true) (hn : x ≠ stackAddr s.sp) :
    (push v s).bus.peek x = s.bus.peek x := Bus.peek_write_other v h hn

/-- A pull takes back what the push before it put, where RAM serves the stack slot. -/
theorem pull_push {s : State} (v : Byte) (h : s.bus.ramAt (stackAddr s.sp) = true) (hw : s.bus.wf = true) :
    pull (push v s) = (v, { push v s with sp := s.sp }) := by
  have e : (push v s).sp + 1 = s.sp := by simp
  rw [pull_plain (by rw [e, (push_evolves v s).plain]; exact Bus.plainAt_of_ramAt h), e, push_peek_same v h hw]

end Sys2Proof.Machine
end

