-- ==== Sys2Proof/Laws/Fetch.lean ====
section
/-!
SUPPORT. The laws of fetching an instruction from memory, of placing a byte where the next fetch finds it, and of a run
of steps.
-/

namespace Sys2Proof.Machine

/-! ### Fetching -/

/-- Fetching a byte of memory only advances PC. -/
theorem fetch8_plain {s : State} (h : s.bus.plainAt s.pc = true) :
    fetch8 s = (s.bus.peek s.pc, { s with pc := s.pc + 1 }) := by
  simp only [fetch8, Bus.read_plain h, Bus.peek]

theorem fetchBytes_succ (n : Nat) (s : State) :
    fetchBytes (n + 1) s = ((fetch8 s).1 :: (fetchBytes n (fetch8 s).2).1, (fetchBytes n (fetch8 s).2).2) := rfl

theorem encode_length_le (i : Instr) : (encode i).length ≤ 3 := by cases i <;> simp [encode]

/-! ### Placing a byte -/

/-- A memory with one byte placed in it. -/
theorem Device.place_some {d d' : Device} {o : Addr} {v : Byte} (h : d.place o v = some d') (hw : d.wf = true)
    (ho : o.toNat < d.size) :
    d'.isMemory = true ∧ d.isMemory = true ∧ d'.size = d.size ∧ d'.wf = true ∧ (d'.read o).1 = v ∧
      ∀ o' : Addr, o' ≠ o → (d'.read o').1 = (d.read o').1 := by
  have hne : ∀ o' : Addr, o' ≠ o → o'.toNat ≠ o.toNat := fun o' h hc => h (BitVec.eq_of_toNat_eq hc)
  cases d with
  | external u n st => simp [Device.place] at h
  | ram n m =>
    obtain rfl := Option.some.inj h
    simp only [Device.wf, Bool.and_eq_true] at hw
    refine ⟨rfl, rfl, rfl, ?_, Memory.read_write_same _ _ hw.1, fun o' h => Memory.read_write_other m v (hne o' h)⟩
    simp only [Device.wf, Bool.and_eq_true]
    exact ⟨Memory.wf_write _ _ hw.1, Memory.all_write _ _ hw.2 (by simpa [Device.size] using ho)⟩
  | rom n m =>
    obtain rfl := Option.some.inj h
    simp only [Device.wf, Bool.and_eq_true] at hw
    refine ⟨rfl, rfl, rfl, ?_, Memory.read_write_same _ _ hw.1, fun o' h => Memory.read_write_other m v (hne o' h)⟩
    simp only [Device.wf, Bool.and_eq_true]
    exact ⟨Memory.wf_write _ _ hw.1, Memory.all_write _ _ hw.2 (by simpa [Device.size] using ho)⟩

/-- What placing a byte at an address makes of a bus: the byte is read there, from memory, and every other address is
served as before. -/
structure Bus.Placed (b : Bus) (x : Addr) (v : Byte) (c : Bus) : Prop where
  fits : c.fits = true
  wf : c.wf = true
  peek : c.peek x = v
  plain : c.plainAt x = true
  plain_other : ∀ y : Addr, y ≠ x → c.plainAt y = b.plainAt y
  peek_other : ∀ y : Addr, y ≠ x → c.peek y = b.peek y

theorem Bus.place?_some {b c : Bus} {x : Addr} {v : Byte} (hf : b.fits = true) (hw : b.wf = true)
    (h : Bus.place? b x v = some c) : b.Placed x v c := by
  induction b generalizing c with
  | nil => simp [Bus.place?] at h
  | cons e rest ih =>
    simp only [Bus.fits, Bus.wf, List.all_cons, Bool.and_eq_true] at hf hw
    cases hx : e.contains x with
    | true =>
      simp only [Bus.place?, hx, if_true, Option.map_eq_some_iff] at h
      obtain ⟨d, hd, rfl⟩ := h
      obtain ⟨hm', hm, hs, hdw, hr, ho⟩ := Device.place_some hd hw.1 (Binding.offset_lt hf.1 hx)
      have hx' : Binding.contains { e with device := d } x = true := hx
      refine ⟨?_, ?_, ?_, ?_, fun y hy => ?_, fun y hy => ?_⟩
      · simpa [Bus.fits, Binding.fits, hs] using hf
      · simpa [Bus.wf, hdw] using hw.2
      · simp only [Bus.peek]
        rw [Bus.read_hit _ hx']
        exact hr
      · rw [Bus.plainAt_cons]
        simp [hx, hm']
      · rw [Bus.plainAt_cons, Bus.plainAt_cons]
        simp [hm, hm']
      · cases hy' : e.contains y with
        | true => simpa [Bus.peek, Bus.read, hy'] using ho _ (Binding.offset_ne hy)
        | false => simp [Bus.peek, Bus.read, hy']
    | false =>
      simp only [Bus.place?, hx, if_false, Bool.false_eq_true, Option.map_eq_some_iff] at h
      obtain ⟨r, hr, rfl⟩ := h
      have p := ih hf.2 hw.2 hr
      refine ⟨?_, ?_, ?_, ?_, fun y hy => ?_, fun y hy => ?_⟩
      · simpa [Bus.fits] using ⟨hf.1, by simpa [Bus.fits] using p.fits⟩
      · simpa [Bus.wf] using ⟨hw.1, by simpa [Bus.wf] using p.wf⟩
      · simpa [Bus.peek, Bus.read, hx] using p.peek
      · simpa [Bus.plainAt_cons, hx] using p.plain
      · rw [Bus.plainAt_cons, Bus.plainAt_cons, p.plain_other y hy]
      · have := p.peek_other y hy
        simp only [Bus.peek] at this
        cases hy' : e.contains y <;> simp [Bus.peek, Bus.read, hy', this]

/-- Placing a byte on an accepted bus in canonical form. -/
theorem Bus.placed_place {b : Bus} (x : Addr) (v : Byte) (hf : b.fits = true) (hw : b.wf = true) :
    b.Placed x v (b.place x v) := by
  unfold Bus.place
  cases h : Bus.place? b x v with
  | some c => exact Bus.place?_some hf hw h
  | none =>
    have miss : ∀ y : Addr, y ≠ x →
        Binding.contains { first := x, last := x, device := .ram 1 (Memory.write [] 0 v) } y = false := by
      intro y hy
      have : y.toNat ≠ x.toNat := fun hc => hy (BitVec.eq_of_toNat_eq hc)
      simp [Binding.contains]
      omega
    have hit : Binding.contains { first := x, last := x, device := .ram 1 (Memory.write [] 0 v) } x = true := by
      simp [Binding.contains]
    refine ⟨?_, ?_, ?_, ?_, fun y hy => ?_, fun y hy => ?_⟩
    · simpa [Bus.fits, Binding.fits, Device.size] using hf
    · have hm : Device.wf (.ram 1 (Memory.write [] 0 v)) = true := by
        simp only [Device.wf, Bool.and_eq_true]
        exact ⟨Memory.wf_write 0 v rfl, Memory.all_write _ _ rfl rfl⟩
      simpa [Bus.wf, hm] using hw
    · simp only [Bus.peek, Bus.read_hit b hit, Device.read, BitVec.sub_self]
      exact Memory.read_write_same 0 v rfl
    · rw [Bus.plainAt_cons]
      simp [hit, Device.isMemory]
    · rw [Bus.plainAt_cons]
      simp [miss y hy]
    · simp only [Bus.peek, Bus.read_miss b (miss y hy)]

/-! ### Runs -/

/-- A run of one step more goes on from the state that step answers. -/
theorem core_run_succ {s t : State} (k : Nat) (h : step s = .next t) :
    Sys2Proof.core.run (k + 1) s = Sys2Proof.core.run k t := by
  have h' : Sys2Proof.core.step s = .next t := h
  simp only [Host.Core.run, h']

end Sys2Proof.Machine
end

