-- ==== Sys2Proof/Laws/Flags.lean ====
section
/-!
SUPPORT. The laws of the status register's bits, and what each flag computation leaves in each bit.
-/

namespace Sys2Proof.Machine

theorem Flag.bit_lt (f : Flag) : f.bit < 8 := by cases f <;> decide

theorem Flag.bit_inj {f g : Flag} (h : f.bit = g.bit) : f = g := by
  cases f <;> cases g <;> first | rfl | exact absurd h (by decide)

@[simp] theorem getFlag_setFlag_same (f : Flag) (v : Bool) (p : Byte) : getFlag f (setFlag f v p) = v := by
  have := f.bit_lt
  cases v <;> simp [getFlag, setFlag, this]

theorem getFlag_setFlag_ne {f g : Flag} (v : Bool) (p : Byte) (h : f ≠ g) :
    getFlag f (setFlag g v p) = getFlag f p := by
  have hf := f.bit_lt
  have hne : ¬ f.bit = g.bit := fun hc => h (Flag.bit_inj hc)
  cases v <;> simp [getFlag, setFlag, hf, hne]

/-- A written bit reads as written and every other bit as before (10_state R33). -/
theorem getFlag_setFlag (f g : Flag) (v : Bool) (p : Byte) :
    getFlag f (setFlag g v p) = if f = g then v else getFlag f p := by
  by_cases h : f = g
  · subst h; simp
  · simp [h, getFlag_setFlag_ne v p h]

/-- `SetNZ` writes Zero and Negative and no other bit (00_scope R13). -/
theorem getFlag_setNZ (f : Flag) (v p : Byte) :
    getFlag f (setNZ v p) = match f with
      | .negative => v.msb
      | .zero => v == 0x00
      | .carry | .interruptDisable | .decimal | .brk | .unused | .overflow => getFlag f p := by
  cases f <;> simp [setNZ, getFlag_setFlag]

@[simp] theorem getFlag_setNZ_negative (v p : Byte) : getFlag .negative (setNZ v p) = v.msb := getFlag_setNZ _ v p

@[simp] theorem getFlag_setNZ_zero (v p : Byte) : getFlag .zero (setNZ v p) = (v == 0x00) := getFlag_setNZ _ v p

theorem flagsKeptBut_setFlag {fs : List Flag} {f : Flag} (v : Bool) {p q : Byte} (hf : f ∈ fs)
    (h : flagsKeptBut fs p q) : flagsKeptBut fs p (setFlag f v q) := by
  intro g hg
  rw [getFlag_setFlag_ne v q (fun hc : g = f => hg (hc ▸ hf)), h g hg]

theorem flagsKeptBut_setNZ {fs : List Flag} (v : Byte) {p q : Byte} (hz : Flag.zero ∈ fs) (hn : Flag.negative ∈ fs)
    (h : flagsKeptBut fs p q) : flagsKeptBut fs p (setNZ v q) :=
  flagsKeptBut_setFlag _ hn (flagsKeptBut_setFlag _ hz h)

theorem flagsKeptBut_refl (fs : List Flag) (p : Byte) : flagsKeptBut fs p p := fun _ _ => rfl

/-- Two status bytes with the same bits are the same. -/
theorem status_ext {p q : Byte} (h : ∀ f : Flag, getFlag f p = getFlag f q) : p = q := by
  apply BitVec.eq_of_getLsbD_eq
  intro k hk
  have h0 := h .carry; have h1 := h .zero; have h2 := h .interruptDisable; have h3 := h .decimal
  have h4 := h .brk; have h5 := h .unused; have h6 := h .overflow; have h7 := h .negative
  simp only [getFlag, Flag.bit] at h0 h1 h2 h3 h4 h5 h6 h7
  have : k = 0 ∨ k = 1 ∨ k = 2 ∨ k = 3 ∨ k = 4 ∨ k = 5 ∨ k = 6 ∨ k = 7 := by omega
  rcases this with rfl | rfl | rfl | rfl | rfl | rfl | rfl | rfl <;> assumption

theorem carryNat_eq (p : Byte) : carryNat p = (getFlag .carry p).toNat := rfl

theorem carryNat_le (p : Byte) : carryNat p ≤ 1 := by
  unfold carryNat
  cases getFlag .carry p <;> decide

/-- What PHP and BRK push, bit by bit (46_stack_system R245). -/
theorem getFlag_pushedStatus (f : Flag) (p : Byte) :
    getFlag f (pushedStatus p) = (f == .brk || f == .unused || getFlag f p) := by
  cases f <;> simp [getFlag, pushedStatus, Flag.bit]

/-- What PLP restores, bit by bit (46_stack_system R246). -/
theorem getFlag_statusFromPlp (f : Flag) (v : Byte) :
    getFlag f (statusFromPlp v) = (f == .unused || getFlag f v) := by
  cases f <;> simp [getFlag, statusFromPlp, Flag.bit]

/-- What RTI restores, bit by bit (46_stack_system R248). -/
theorem getFlag_statusFromRti (f : Flag) (v : Byte) :
    getFlag f (statusFromRti v) = (f != .brk && getFlag f v) := by
  cases f <;> simp [getFlag, statusFromRti, Flag.bit]

/-! ### Flag computations, as arithmetic on numbers -/

theorem getLsbD_seven (v : Byte) : v.getLsbD 7 = decide (128 ≤ v.toNat) := by
  have := BitVec.msb_eq_decide v
  simpa [BitVec.msb_eq_getLsbD_last] using this

theorem getLsbD_zero_eq (v : Byte) : v.getLsbD 0 = decide (v.toNat % 2 = 1) := by
  simp [BitVec.getLsbD, Nat.testBit_zero]

theorem and_sign_ne_zero : ∀ w : Byte, ((w &&& 0x80) != 0x00) = w.getLsbD 7 := by decide

theorem zero_eq_decide (r : Byte) : (r == 0x00) = decide (r.toNat = 0) := by
  by_cases h : r = 0x00
  · simp [h]
  · have : r.toNat ≠ 0 := fun hc => h (BitVec.eq_of_toNat_eq (by simpa using hc))
    simpa [this] using h

/-- ADC, once for every form (41_arithmetic R101). -/
theorem adcByte_spec (a v p : Byte) :
    (adcByte a v p).1.toNat = (a.toNat + v.toNat + carryNat p) % 256 ∧
    (adcByte a v p).2 = setNZ (adcByte a v p).1
      (setFlag .overflow (a.getLsbD 7 == v.getLsbD 7 && a.getLsbD 7 != (adcByte a v p).1.getLsbD 7)
        (setFlag .carry (decide (a.toNat + v.toNat + carryNat p > 255)) p)) := by
  refine ⟨by simp [adcByte], ?_⟩
  simp only [adcByte, and_sign_ne_zero, BitVec.getLsbD_and, BitVec.getLsbD_xor, BitVec.getLsbD_not]
  cases a.getLsbD 7 <;> cases v.getLsbD 7 <;> simp

/-- SBC, once for every form (41_arithmetic R102). -/
theorem sbcByte_spec (a v p : Byte) :
    ((sbcByte a v p).1.toNat : Int) = ((a.toNat : Int) - v.toNat - (1 - carryNat p)) % 256 ∧
    (sbcByte a v p).2 = setNZ (sbcByte a v p).1
      (setFlag .overflow (a.getLsbD 7 != v.getLsbD 7 && a.getLsbD 7 != (sbcByte a v p).1.getLsbD 7)
        (setFlag .carry (decide ((a.toNat : Int) - v.toNat - (1 - carryNat p) ≥ 0)) p)) := by
  refine ⟨?_, ?_⟩
  · simp [sbcByte]
    omega
  · simp only [sbcByte, and_sign_ne_zero, BitVec.getLsbD_and, BitVec.getLsbD_xor]

theorem aslByte_value (v p : Byte) : (aslByte v p).1.toNat = 2 * v.toNat % 256 := by
  simp [aslByte, Nat.shiftLeft_eq, Nat.mul_comm]

theorem lsrByte_value (v p : Byte) : (lsrByte v p).1.toNat = v.toNat / 2 := by
  simp [lsrByte, Nat.shiftRight_eq_div_pow]

theorem rolByte_value (v p : Byte) : (rolByte v p).1.toNat = (2 * v.toNat + carryNat p) % 256 := by
  simp only [rolByte, carryByte, carryNat]
  generalize getFlag .carry p = c
  revert v
  cases c <;> decide

theorem rorByte_value (v p : Byte) : (rorByte v p).1.toNat = v.toNat / 2 + 128 * carryNat p := by
  simp only [rorByte, carryByte, carryNat]
  generalize getFlag .carry p = c
  revert v
  cases c <;> decide

end Sys2Proof.Machine
end

