-- ==== Sys2Proof/Laws/PerInstr.lean ====
section
/-!
SUPPORT. A statement made per instruction: the opcode byte an instruction is encoded with selects, in the decoder's opcode
map, that instruction with its operand (30_encoding R62, R79).
-/

namespace Sys2Proof.Laws.OpcodeSelects

open Sys2Proof

/-- The first byte of a well-formed instruction's encoding selects it, and the other bytes are its operand, low byte
first. -/
def Statement (i : Instr) : Prop :=
  i.wf = true →
    match encode i with
    | [op] => formatOf op = .complete i
    | [op, b] => ∃ f, formatOf op = .byteOperand f ∧ f b = i
    | [op, lo, hi] => ∃ f, formatOf op = .wordOperand f ∧ f (word16 hi lo) = i
    | _ => False

theorem adcImm (v : Byte) : Statement (.adcImm v) := fun _ => ⟨Instr.adcImm, rfl, rfl⟩

theorem adcZp (z : Byte) : Statement (.adcZp z) := fun _ => ⟨Instr.adcZp, rfl, rfl⟩

theorem adcZpx (z : Byte) : Statement (.adcZpx z) := fun _ => ⟨Instr.adcZpx, rfl, rfl⟩

theorem adcAbs (addr : Addr) : Statement (.adcAbs addr) :=
  fun _ => ⟨Instr.adcAbs, rfl, congrArg Instr.adcAbs (word16_hiByte_loByte addr)⟩

theorem adcAbsx (addr : Addr) : Statement (.adcAbsx addr) :=
  fun _ => ⟨Instr.adcAbsx, rfl, congrArg Instr.adcAbsx (word16_hiByte_loByte addr)⟩

theorem adcAbsy (addr : Addr) : Statement (.adcAbsy addr) :=
  fun _ => ⟨Instr.adcAbsy, rfl, congrArg Instr.adcAbsy (word16_hiByte_loByte addr)⟩

theorem adcIndx (z : Byte) : Statement (.adcIndx z) := fun _ => ⟨Instr.adcIndx, rfl, rfl⟩

theorem adcIndy (z : Byte) : Statement (.adcIndy z) := fun _ => ⟨Instr.adcIndy, rfl, rfl⟩

theorem sbcImm (v : Byte) : Statement (.sbcImm v) := fun _ => ⟨Instr.sbcImm, rfl, rfl⟩

theorem sbcZp (z : Byte) : Statement (.sbcZp z) := fun _ => ⟨Instr.sbcZp, rfl, rfl⟩

theorem sbcZpx (z : Byte) : Statement (.sbcZpx z) := fun _ => ⟨Instr.sbcZpx, rfl, rfl⟩

theorem sbcAbs (addr : Addr) : Statement (.sbcAbs addr) :=
  fun _ => ⟨Instr.sbcAbs, rfl, congrArg Instr.sbcAbs (word16_hiByte_loByte addr)⟩

theorem sbcAbsx (addr : Addr) : Statement (.sbcAbsx addr) :=
  fun _ => ⟨Instr.sbcAbsx, rfl, congrArg Instr.sbcAbsx (word16_hiByte_loByte addr)⟩

theorem sbcAbsy (addr : Addr) : Statement (.sbcAbsy addr) :=
  fun _ => ⟨Instr.sbcAbsy, rfl, congrArg Instr.sbcAbsy (word16_hiByte_loByte addr)⟩

theorem sbcIndx (z : Byte) : Statement (.sbcIndx z) := fun _ => ⟨Instr.sbcIndx, rfl, rfl⟩

theorem sbcIndy (z : Byte) : Statement (.sbcIndy z) := fun _ => ⟨Instr.sbcIndy, rfl, rfl⟩

theorem cmpImm (v : Byte) : Statement (.cmpImm v) := fun _ => ⟨Instr.cmpImm, rfl, rfl⟩

theorem cmpZp (z : Byte) : Statement (.cmpZp z) := fun _ => ⟨Instr.cmpZp, rfl, rfl⟩

theorem cmpZpx (z : Byte) : Statement (.cmpZpx z) := fun _ => ⟨Instr.cmpZpx, rfl, rfl⟩

theorem cmpAbs (addr : Addr) : Statement (.cmpAbs addr) :=
  fun _ => ⟨Instr.cmpAbs, rfl, congrArg Instr.cmpAbs (word16_hiByte_loByte addr)⟩

theorem cmpAbsx (addr : Addr) : Statement (.cmpAbsx addr) :=
  fun _ => ⟨Instr.cmpAbsx, rfl, congrArg Instr.cmpAbsx (word16_hiByte_loByte addr)⟩

theorem cmpAbsy (addr : Addr) : Statement (.cmpAbsy addr) :=
  fun _ => ⟨Instr.cmpAbsy, rfl, congrArg Instr.cmpAbsy (word16_hiByte_loByte addr)⟩

theorem cmpIndx (z : Byte) : Statement (.cmpIndx z) := fun _ => ⟨Instr.cmpIndx, rfl, rfl⟩

theorem cmpIndy (z : Byte) : Statement (.cmpIndy z) := fun _ => ⟨Instr.cmpIndy, rfl, rfl⟩

theorem cpxImm (v : Byte) : Statement (.cpxImm v) := fun _ => ⟨Instr.cpxImm, rfl, rfl⟩

theorem cpxZp (z : Byte) : Statement (.cpxZp z) := fun _ => ⟨Instr.cpxZp, rfl, rfl⟩

theorem cpxAbs (addr : Addr) : Statement (.cpxAbs addr) :=
  fun _ => ⟨Instr.cpxAbs, rfl, congrArg Instr.cpxAbs (word16_hiByte_loByte addr)⟩

theorem cpyImm (v : Byte) : Statement (.cpyImm v) := fun _ => ⟨Instr.cpyImm, rfl, rfl⟩

theorem cpyZp (z : Byte) : Statement (.cpyZp z) := fun _ => ⟨Instr.cpyZp, rfl, rfl⟩

theorem cpyAbs (addr : Addr) : Statement (.cpyAbs addr) :=
  fun _ => ⟨Instr.cpyAbs, rfl, congrArg Instr.cpyAbs (word16_hiByte_loByte addr)⟩

theorem incZp (z : Byte) : Statement (.incZp z) := fun _ => ⟨Instr.incZp, rfl, rfl⟩

theorem incZpx (z : Byte) : Statement (.incZpx z) := fun _ => ⟨Instr.incZpx, rfl, rfl⟩

theorem incAbs (addr : Addr) : Statement (.incAbs addr) :=
  fun _ => ⟨Instr.incAbs, rfl, congrArg Instr.incAbs (word16_hiByte_loByte addr)⟩

theorem incAbsx (addr : Addr) : Statement (.incAbsx addr) :=
  fun _ => ⟨Instr.incAbsx, rfl, congrArg Instr.incAbsx (word16_hiByte_loByte addr)⟩

theorem decZp (z : Byte) : Statement (.decZp z) := fun _ => ⟨Instr.decZp, rfl, rfl⟩

theorem decZpx (z : Byte) : Statement (.decZpx z) := fun _ => ⟨Instr.decZpx, rfl, rfl⟩

theorem decAbs (addr : Addr) : Statement (.decAbs addr) :=
  fun _ => ⟨Instr.decAbs, rfl, congrArg Instr.decAbs (word16_hiByte_loByte addr)⟩

theorem decAbsx (addr : Addr) : Statement (.decAbsx addr) :=
  fun _ => ⟨Instr.decAbsx, rfl, congrArg Instr.decAbsx (word16_hiByte_loByte addr)⟩

theorem inx : Statement .inx := fun _ => rfl

theorem iny : Statement .iny := fun _ => rfl

theorem dex : Statement .dex := fun _ => rfl

theorem dey : Statement .dey := fun _ => rfl

theorem andImm (v : Byte) : Statement (.andImm v) := fun _ => ⟨Instr.andImm, rfl, rfl⟩

theorem andZp (z : Byte) : Statement (.andZp z) := fun _ => ⟨Instr.andZp, rfl, rfl⟩

theorem andZpx (z : Byte) : Statement (.andZpx z) := fun _ => ⟨Instr.andZpx, rfl, rfl⟩

theorem andAbs (addr : Addr) : Statement (.andAbs addr) :=
  fun _ => ⟨Instr.andAbs, rfl, congrArg Instr.andAbs (word16_hiByte_loByte addr)⟩

theorem andAbsx (addr : Addr) : Statement (.andAbsx addr) :=
  fun _ => ⟨Instr.andAbsx, rfl, congrArg Instr.andAbsx (word16_hiByte_loByte addr)⟩

theorem andAbsy (addr : Addr) : Statement (.andAbsy addr) :=
  fun _ => ⟨Instr.andAbsy, rfl, congrArg Instr.andAbsy (word16_hiByte_loByte addr)⟩

theorem andIndx (z : Byte) : Statement (.andIndx z) := fun _ => ⟨Instr.andIndx, rfl, rfl⟩

theorem andIndy (z : Byte) : Statement (.andIndy z) := fun _ => ⟨Instr.andIndy, rfl, rfl⟩

theorem oraImm (v : Byte) : Statement (.oraImm v) := fun _ => ⟨Instr.oraImm, rfl, rfl⟩

theorem oraZp (z : Byte) : Statement (.oraZp z) := fun _ => ⟨Instr.oraZp, rfl, rfl⟩

theorem oraZpx (z : Byte) : Statement (.oraZpx z) := fun _ => ⟨Instr.oraZpx, rfl, rfl⟩

theorem oraAbs (addr : Addr) : Statement (.oraAbs addr) :=
  fun _ => ⟨Instr.oraAbs, rfl, congrArg Instr.oraAbs (word16_hiByte_loByte addr)⟩

theorem oraAbsx (addr : Addr) : Statement (.oraAbsx addr) :=
  fun _ => ⟨Instr.oraAbsx, rfl, congrArg Instr.oraAbsx (word16_hiByte_loByte addr)⟩

theorem oraAbsy (addr : Addr) : Statement (.oraAbsy addr) :=
  fun _ => ⟨Instr.oraAbsy, rfl, congrArg Instr.oraAbsy (word16_hiByte_loByte addr)⟩

theorem oraIndx (z : Byte) : Statement (.oraIndx z) := fun _ => ⟨Instr.oraIndx, rfl, rfl⟩

theorem oraIndy (z : Byte) : Statement (.oraIndy z) := fun _ => ⟨Instr.oraIndy, rfl, rfl⟩

theorem eorImm (v : Byte) : Statement (.eorImm v) := fun _ => ⟨Instr.eorImm, rfl, rfl⟩

theorem eorZp (z : Byte) : Statement (.eorZp z) := fun _ => ⟨Instr.eorZp, rfl, rfl⟩

theorem eorZpx (z : Byte) : Statement (.eorZpx z) := fun _ => ⟨Instr.eorZpx, rfl, rfl⟩

theorem eorAbs (addr : Addr) : Statement (.eorAbs addr) :=
  fun _ => ⟨Instr.eorAbs, rfl, congrArg Instr.eorAbs (word16_hiByte_loByte addr)⟩

theorem eorAbsx (addr : Addr) : Statement (.eorAbsx addr) :=
  fun _ => ⟨Instr.eorAbsx, rfl, congrArg Instr.eorAbsx (word16_hiByte_loByte addr)⟩

theorem eorAbsy (addr : Addr) : Statement (.eorAbsy addr) :=
  fun _ => ⟨Instr.eorAbsy, rfl, congrArg Instr.eorAbsy (word16_hiByte_loByte addr)⟩

theorem eorIndx (z : Byte) : Statement (.eorIndx z) := fun _ => ⟨Instr.eorIndx, rfl, rfl⟩

theorem eorIndy (z : Byte) : Statement (.eorIndy z) := fun _ => ⟨Instr.eorIndy, rfl, rfl⟩

theorem bitZp (z : Byte) : Statement (.bitZp z) := fun _ => ⟨Instr.bitZp, rfl, rfl⟩

theorem bitAbs (addr : Addr) : Statement (.bitAbs addr) :=
  fun _ => ⟨Instr.bitAbs, rfl, congrArg Instr.bitAbs (word16_hiByte_loByte addr)⟩

theorem aslAcc : Statement .aslAcc := fun _ => rfl

theorem aslZp (z : Byte) : Statement (.aslZp z) := fun _ => ⟨Instr.aslZp, rfl, rfl⟩

theorem aslZpx (z : Byte) : Statement (.aslZpx z) := fun _ => ⟨Instr.aslZpx, rfl, rfl⟩

theorem aslAbs (addr : Addr) : Statement (.aslAbs addr) :=
  fun _ => ⟨Instr.aslAbs, rfl, congrArg Instr.aslAbs (word16_hiByte_loByte addr)⟩

theorem aslAbsx (addr : Addr) : Statement (.aslAbsx addr) :=
  fun _ => ⟨Instr.aslAbsx, rfl, congrArg Instr.aslAbsx (word16_hiByte_loByte addr)⟩

theorem lsrAcc : Statement .lsrAcc := fun _ => rfl

theorem lsrZp (z : Byte) : Statement (.lsrZp z) := fun _ => ⟨Instr.lsrZp, rfl, rfl⟩

theorem lsrZpx (z : Byte) : Statement (.lsrZpx z) := fun _ => ⟨Instr.lsrZpx, rfl, rfl⟩

theorem lsrAbs (addr : Addr) : Statement (.lsrAbs addr) :=
  fun _ => ⟨Instr.lsrAbs, rfl, congrArg Instr.lsrAbs (word16_hiByte_loByte addr)⟩

theorem lsrAbsx (addr : Addr) : Statement (.lsrAbsx addr) :=
  fun _ => ⟨Instr.lsrAbsx, rfl, congrArg Instr.lsrAbsx (word16_hiByte_loByte addr)⟩

theorem rolAcc : Statement .rolAcc := fun _ => rfl

theorem rolZp (z : Byte) : Statement (.rolZp z) := fun _ => ⟨Instr.rolZp, rfl, rfl⟩

theorem rolZpx (z : Byte) : Statement (.rolZpx z) := fun _ => ⟨Instr.rolZpx, rfl, rfl⟩

theorem rolAbs (addr : Addr) : Statement (.rolAbs addr) :=
  fun _ => ⟨Instr.rolAbs, rfl, congrArg Instr.rolAbs (word16_hiByte_loByte addr)⟩

theorem rolAbsx (addr : Addr) : Statement (.rolAbsx addr) :=
  fun _ => ⟨Instr.rolAbsx, rfl, congrArg Instr.rolAbsx (word16_hiByte_loByte addr)⟩

theorem rorAcc : Statement .rorAcc := fun _ => rfl

theorem rorZp (z : Byte) : Statement (.rorZp z) := fun _ => ⟨Instr.rorZp, rfl, rfl⟩

theorem rorZpx (z : Byte) : Statement (.rorZpx z) := fun _ => ⟨Instr.rorZpx, rfl, rfl⟩

theorem rorAbs (addr : Addr) : Statement (.rorAbs addr) :=
  fun _ => ⟨Instr.rorAbs, rfl, congrArg Instr.rorAbs (word16_hiByte_loByte addr)⟩

theorem rorAbsx (addr : Addr) : Statement (.rorAbsx addr) :=
  fun _ => ⟨Instr.rorAbsx, rfl, congrArg Instr.rorAbsx (word16_hiByte_loByte addr)⟩

theorem ldaImm (v : Byte) : Statement (.ldaImm v) := fun _ => ⟨Instr.ldaImm, rfl, rfl⟩

theorem ldaZp (z : Byte) : Statement (.ldaZp z) := fun _ => ⟨Instr.ldaZp, rfl, rfl⟩

theorem ldaZpx (z : Byte) : Statement (.ldaZpx z) := fun _ => ⟨Instr.ldaZpx, rfl, rfl⟩

theorem ldaAbs (addr : Addr) : Statement (.ldaAbs addr) :=
  fun _ => ⟨Instr.ldaAbs, rfl, congrArg Instr.ldaAbs (word16_hiByte_loByte addr)⟩

theorem ldaAbsx (addr : Addr) : Statement (.ldaAbsx addr) :=
  fun _ => ⟨Instr.ldaAbsx, rfl, congrArg Instr.ldaAbsx (word16_hiByte_loByte addr)⟩

theorem ldaAbsy (addr : Addr) : Statement (.ldaAbsy addr) :=
  fun _ => ⟨Instr.ldaAbsy, rfl, congrArg Instr.ldaAbsy (word16_hiByte_loByte addr)⟩

theorem ldaIndx (z : Byte) : Statement (.ldaIndx z) := fun _ => ⟨Instr.ldaIndx, rfl, rfl⟩

theorem ldaIndy (z : Byte) : Statement (.ldaIndy z) := fun _ => ⟨Instr.ldaIndy, rfl, rfl⟩

theorem ldxImm (v : Byte) : Statement (.ldxImm v) := fun _ => ⟨Instr.ldxImm, rfl, rfl⟩

theorem ldxZp (z : Byte) : Statement (.ldxZp z) := fun _ => ⟨Instr.ldxZp, rfl, rfl⟩

theorem ldxZpy (z : Byte) : Statement (.ldxZpy z) := fun _ => ⟨Instr.ldxZpy, rfl, rfl⟩

theorem ldxAbs (addr : Addr) : Statement (.ldxAbs addr) :=
  fun _ => ⟨Instr.ldxAbs, rfl, congrArg Instr.ldxAbs (word16_hiByte_loByte addr)⟩

theorem ldxAbsy (addr : Addr) : Statement (.ldxAbsy addr) :=
  fun _ => ⟨Instr.ldxAbsy, rfl, congrArg Instr.ldxAbsy (word16_hiByte_loByte addr)⟩

theorem ldyImm (v : Byte) : Statement (.ldyImm v) := fun _ => ⟨Instr.ldyImm, rfl, rfl⟩

theorem ldyZp (z : Byte) : Statement (.ldyZp z) := fun _ => ⟨Instr.ldyZp, rfl, rfl⟩

theorem ldyZpx (z : Byte) : Statement (.ldyZpx z) := fun _ => ⟨Instr.ldyZpx, rfl, rfl⟩

theorem ldyAbs (addr : Addr) : Statement (.ldyAbs addr) :=
  fun _ => ⟨Instr.ldyAbs, rfl, congrArg Instr.ldyAbs (word16_hiByte_loByte addr)⟩

theorem ldyAbsx (addr : Addr) : Statement (.ldyAbsx addr) :=
  fun _ => ⟨Instr.ldyAbsx, rfl, congrArg Instr.ldyAbsx (word16_hiByte_loByte addr)⟩

theorem staZp (z : Byte) : Statement (.staZp z) := fun _ => ⟨Instr.staZp, rfl, rfl⟩

theorem staZpx (z : Byte) : Statement (.staZpx z) := fun _ => ⟨Instr.staZpx, rfl, rfl⟩

theorem staAbs (addr : Addr) : Statement (.staAbs addr) :=
  fun _ => ⟨Instr.staAbs, rfl, congrArg Instr.staAbs (word16_hiByte_loByte addr)⟩

theorem staAbsx (addr : Addr) : Statement (.staAbsx addr) :=
  fun _ => ⟨Instr.staAbsx, rfl, congrArg Instr.staAbsx (word16_hiByte_loByte addr)⟩

theorem staAbsy (addr : Addr) : Statement (.staAbsy addr) :=
  fun _ => ⟨Instr.staAbsy, rfl, congrArg Instr.staAbsy (word16_hiByte_loByte addr)⟩

theorem staIndx (z : Byte) : Statement (.staIndx z) := fun _ => ⟨Instr.staIndx, rfl, rfl⟩

theorem staIndy (z : Byte) : Statement (.staIndy z) := fun _ => ⟨Instr.staIndy, rfl, rfl⟩

theorem stxZp (z : Byte) : Statement (.stxZp z) := fun _ => ⟨Instr.stxZp, rfl, rfl⟩

theorem stxZpy (z : Byte) : Statement (.stxZpy z) := fun _ => ⟨Instr.stxZpy, rfl, rfl⟩

theorem stxAbs (addr : Addr) : Statement (.stxAbs addr) :=
  fun _ => ⟨Instr.stxAbs, rfl, congrArg Instr.stxAbs (word16_hiByte_loByte addr)⟩

theorem styZp (z : Byte) : Statement (.styZp z) := fun _ => ⟨Instr.styZp, rfl, rfl⟩

theorem styZpx (z : Byte) : Statement (.styZpx z) := fun _ => ⟨Instr.styZpx, rfl, rfl⟩

theorem styAbs (addr : Addr) : Statement (.styAbs addr) :=
  fun _ => ⟨Instr.styAbs, rfl, congrArg Instr.styAbs (word16_hiByte_loByte addr)⟩

theorem tax : Statement .tax := fun _ => rfl

theorem tay : Statement .tay := fun _ => rfl

theorem txa : Statement .txa := fun _ => rfl

theorem tya : Statement .tya := fun _ => rfl

theorem tsx : Statement .tsx := fun _ => rfl

theorem txs : Statement .txs := fun _ => rfl

theorem clc : Statement .clc := fun _ => rfl

theorem sec : Statement .sec := fun _ => rfl

theorem cli : Statement .cli := fun _ => rfl

theorem sei : Statement .sei := fun _ => rfl

theorem cld : Statement .cld := fun _ => rfl

theorem sed : Statement .sed := fun _ => rfl

theorem clv : Statement .clv := fun _ => rfl

theorem bpl (off : Byte) : Statement (.bpl off) := fun _ => ⟨Instr.bpl, rfl, rfl⟩

theorem bmi (off : Byte) : Statement (.bmi off) := fun _ => ⟨Instr.bmi, rfl, rfl⟩

theorem bvc (off : Byte) : Statement (.bvc off) := fun _ => ⟨Instr.bvc, rfl, rfl⟩

theorem bvs (off : Byte) : Statement (.bvs off) := fun _ => ⟨Instr.bvs, rfl, rfl⟩

theorem bcc (off : Byte) : Statement (.bcc off) := fun _ => ⟨Instr.bcc, rfl, rfl⟩

theorem bcs (off : Byte) : Statement (.bcs off) := fun _ => ⟨Instr.bcs, rfl, rfl⟩

theorem bne (off : Byte) : Statement (.bne off) := fun _ => ⟨Instr.bne, rfl, rfl⟩

theorem beq (off : Byte) : Statement (.beq off) := fun _ => ⟨Instr.beq, rfl, rfl⟩

theorem jmpAbs (addr : Addr) : Statement (.jmpAbs addr) :=
  fun _ => ⟨Instr.jmpAbs, rfl, congrArg Instr.jmpAbs (word16_hiByte_loByte addr)⟩

theorem jmpInd (ptr : Addr) : Statement (.jmpInd ptr) :=
  fun _ => ⟨Instr.jmpInd, rfl, congrArg Instr.jmpInd (word16_hiByte_loByte ptr)⟩

theorem jsr (addr : Addr) : Statement (.jsr addr) :=
  fun _ => ⟨Instr.jsr, rfl, congrArg Instr.jsr (word16_hiByte_loByte addr)⟩

theorem rts : Statement .rts := fun _ => rfl

theorem pha : Statement .pha := fun _ => rfl

theorem pla : Statement .pla := fun _ => rfl

theorem php : Statement .php := fun _ => rfl

theorem plp : Statement .plp := fun _ => rfl

theorem brk : Statement .brk := fun _ => rfl

theorem rti : Statement .rti := fun _ => rfl

theorem nop : Statement .nop := fun _ => rfl

theorem unrecognised (op : Byte) : Statement (.unrecognised op) := by
  intro h
  have hu : op ∈ unrecognisedOpcodes := by simpa [Instr.wf] using h
  have m := opcodeMeans_formatOf op
  show formatOf op = .complete (.unrecognised op)
  cases hf : formatOf op with
  | complete j => rw [hf] at m; rw [m.2.2.mp hu]
  | byteOperand f => rw [hf] at m; exact absurd hu m.1
  | wordOperand f => rw [hf] at m; exact absurd hu m.1

end Sys2Proof.Laws.OpcodeSelects
end

