-- ==== Sys2Proof/Laws/Shapes.lean ====
section
/-!
SUPPORT. Said once: what an instruction can do to the state. Every invariant and frame follows from these few shapes.
-/

namespace Sys2Proof.Machine

/-- The shapes of a state change, with the addresses it stores to, in order. -/
inductive ExecShape (s : State) : List Addr → State → Prop where
  /-- registers and P, no bus access -/
  | registers (a x y sp p : Byte) (pc : Addr) :
      ExecShape s [] { s with a := a, x := x, y := y, sp := sp, p := p, pc := pc }
  /-- a read-class instruction on memory -/
  | operand (m : MemOperand) (a x y p : Byte) :
      ExecShape s [] { s with a := a, x := x, y := y, p := p, bus := (loadByte m s).2 }
  /-- a read-modify-write instruction on memory -/
  | modify (f : Byte → Byte → Byte × Byte) (m : MemOperand) :
      ExecShape s [(effectiveAddr m s).1] (modifyByte f m s)
  /-- a store -/
  | store (m : MemOperand) (v : Byte) : ExecShape s [(effectiveAddr m s).1] (storeByte m v s)
  /-- an indirect jump -/
  | indirectJump (ptr : Addr) :
      ExecShape s [] { s with pc := (indirectTarget ptr s).1, bus := (indirectTarget ptr s).2 }
  /-- a push -/
  | pushes (v : Byte) : ExecShape s [stackAddr s.sp] (push v s)
  /-- a pull into A or P -/
  | pulls (a p : Byte) : ExecShape s [] { (pull s).2 with a := a, p := p }
  /-- a subroutine call -/
  | call (w target : Addr) :
      ExecShape s [stackAddr s.sp, stackAddr (s.sp - 1)] { pushWord w s with pc := target }
  /-- a subroutine return -/
  | ret (pc : Addr) : ExecShape s [] { (pullWord s).2 with pc := pc }
  /-- the trap entry -/
  | trap : ExecShape s [stackAddr s.sp, stackAddr (s.sp - 1), stackAddr (s.sp - 2)] (takeBreak s)
  /-- the trap return -/
  | trapReturn : ExecShape s [] (returnFromBreak s)

theorem branchIf_shape (c : Bool) (off : Byte) (s : State) : ExecShape s [] (branchIf c off s) := by
  rw [branchIf_eq]
  exact .registers s.a s.x s.y s.sp s.p _

/-- Every instruction that answers a next state has one of the shapes, with the stored addresses `storedAddrs` gives. -/
theorem exec_shape {i : Instr} {s t : State} (h : exec i s = .next t) : ExecShape s (storedAddrs i s) t := by
  cases i with
  | adcImm v => cases h; exact .registers _ s.x s.y s.sp _ s.pc
  | adcZp z => cases h; exact .operand _ _ s.x s.y _
  | adcZpx z => cases h; exact .operand _ _ s.x s.y _
  | adcAbs addr => cases h; exact .operand _ _ s.x s.y _
  | adcAbsx addr => cases h; exact .operand _ _ s.x s.y _
  | adcAbsy addr => cases h; exact .operand _ _ s.x s.y _
  | adcIndx z => cases h; exact .operand _ _ s.x s.y _
  | adcIndy z => cases h; exact .operand _ _ s.x s.y _
  | sbcImm v => cases h; exact .registers _ s.x s.y s.sp _ s.pc
  | sbcZp z => cases h; exact .operand _ _ s.x s.y _
  | sbcZpx z => cases h; exact .operand _ _ s.x s.y _
  | sbcAbs addr => cases h; exact .operand _ _ s.x s.y _
  | sbcAbsx addr => cases h; exact .operand _ _ s.x s.y _
  | sbcAbsy addr => cases h; exact .operand _ _ s.x s.y _
  | sbcIndx z => cases h; exact .operand _ _ s.x s.y _
  | sbcIndy z => cases h; exact .operand _ _ s.x s.y _
  | cmpImm v => cases h; exact .registers s.a s.x s.y s.sp _ s.pc
  | cmpZp z => cases h; exact .operand _ s.a s.x s.y _
  | cmpZpx z => cases h; exact .operand _ s.a s.x s.y _
  | cmpAbs addr => cases h; exact .operand _ s.a s.x s.y _
  | cmpAbsx addr => cases h; exact .operand _ s.a s.x s.y _
  | cmpAbsy addr => cases h; exact .operand _ s.a s.x s.y _
  | cmpIndx z => cases h; exact .operand _ s.a s.x s.y _
  | cmpIndy z => cases h; exact .operand _ s.a s.x s.y _
  | cpxImm v => cases h; exact .registers s.a s.x s.y s.sp _ s.pc
  | cpxZp z => cases h; exact .operand _ s.a s.x s.y _
  | cpxAbs addr => cases h; exact .operand _ s.a s.x s.y _
  | cpyImm v => cases h; exact .registers s.a s.x s.y s.sp _ s.pc
  | cpyZp z => cases h; exact .operand _ s.a s.x s.y _
  | cpyAbs addr => cases h; exact .operand _ s.a s.x s.y _
  | incZp z => cases h; exact .modify _ _
  | incZpx z => cases h; exact .modify _ _
  | incAbs addr => cases h; exact .modify _ _
  | incAbsx addr => cases h; exact .modify _ _
  | decZp z => cases h; exact .modify _ _
  | decZpx z => cases h; exact .modify _ _
  | decAbs addr => cases h; exact .modify _ _
  | decAbsx addr => cases h; exact .modify _ _
  | inx => cases h; exact .registers s.a _ s.y s.sp _ s.pc
  | iny => cases h; exact .registers s.a s.x _ s.sp _ s.pc
  | dex => cases h; exact .registers s.a _ s.y s.sp _ s.pc
  | dey => cases h; exact .registers s.a s.x _ s.sp _ s.pc
  | andImm v => cases h; exact .registers _ s.x s.y s.sp _ s.pc
  | andZp z => cases h; exact .operand _ _ s.x s.y _
  | andZpx z => cases h; exact .operand _ _ s.x s.y _
  | andAbs addr => cases h; exact .operand _ _ s.x s.y _
  | andAbsx addr => cases h; exact .operand _ _ s.x s.y _
  | andAbsy addr => cases h; exact .operand _ _ s.x s.y _
  | andIndx z => cases h; exact .operand _ _ s.x s.y _
  | andIndy z => cases h; exact .operand _ _ s.x s.y _
  | oraImm v => cases h; exact .registers _ s.x s.y s.sp _ s.pc
  | oraZp z => cases h; exact .operand _ _ s.x s.y _
  | oraZpx z => cases h; exact .operand _ _ s.x s.y _
  | oraAbs addr => cases h; exact .operand _ _ s.x s.y _
  | oraAbsx addr => cases h; exact .operand _ _ s.x s.y _
  | oraAbsy addr => cases h; exact .operand _ _ s.x s.y _
  | oraIndx z => cases h; exact .operand _ _ s.x s.y _
  | oraIndy z => cases h; exact .operand _ _ s.x s.y _
  | eorImm v => cases h; exact .registers _ s.x s.y s.sp _ s.pc
  | eorZp z => cases h; exact .operand _ _ s.x s.y _
  | eorZpx z => cases h; exact .operand _ _ s.x s.y _
  | eorAbs addr => cases h; exact .operand _ _ s.x s.y _
  | eorAbsx addr => cases h; exact .operand _ _ s.x s.y _
  | eorAbsy addr => cases h; exact .operand _ _ s.x s.y _
  | eorIndx z => cases h; exact .operand _ _ s.x s.y _
  | eorIndy z => cases h; exact .operand _ _ s.x s.y _
  | bitZp z => cases h; exact .operand _ s.a s.x s.y _
  | bitAbs addr => cases h; exact .operand _ s.a s.x s.y _
  | aslAcc => cases h; exact .registers _ s.x s.y s.sp _ s.pc
  | aslZp z => cases h; exact .modify _ _
  | aslZpx z => cases h; exact .modify _ _
  | aslAbs addr => cases h; exact .modify _ _
  | aslAbsx addr => cases h; exact .modify _ _
  | lsrAcc => cases h; exact .registers _ s.x s.y s.sp _ s.pc
  | lsrZp z => cases h; exact .modify _ _
  | lsrZpx z => cases h; exact .modify _ _
  | lsrAbs addr => cases h; exact .modify _ _
  | lsrAbsx addr => cases h; exact .modify _ _
  | rolAcc => cases h; exact .registers _ s.x s.y s.sp _ s.pc
  | rolZp z => cases h; exact .modify _ _
  | rolZpx z => cases h; exact .modify _ _
  | rolAbs addr => cases h; exact .modify _ _
  | rolAbsx addr => cases h; exact .modify _ _
  | rorAcc => cases h; exact .registers _ s.x s.y s.sp _ s.pc
  | rorZp z => cases h; exact .modify _ _
  | rorZpx z => cases h; exact .modify _ _
  | rorAbs addr => cases h; exact .modify _ _
  | rorAbsx addr => cases h; exact .modify _ _
  | ldaImm v => cases h; exact .registers _ s.x s.y s.sp _ s.pc
  | ldaZp z => cases h; exact .operand _ _ s.x s.y _
  | ldaZpx z => cases h; exact .operand _ _ s.x s.y _
  | ldaAbs addr => cases h; exact .operand _ _ s.x s.y _
  | ldaAbsx addr => cases h; exact .operand _ _ s.x s.y _
  | ldaAbsy addr => cases h; exact .operand _ _ s.x s.y _
  | ldaIndx z => cases h; exact .operand _ _ s.x s.y _
  | ldaIndy z => cases h; exact .operand _ _ s.x s.y _
  | ldxImm v => cases h; exact .registers s.a _ s.y s.sp _ s.pc
  | ldxZp z => cases h; exact .operand _ s.a _ s.y _
  | ldxZpy z => cases h; exact .operand _ s.a _ s.y _
  | ldxAbs addr => cases h; exact .operand _ s.a _ s.y _
  | ldxAbsy addr => cases h; exact .operand _ s.a _ s.y _
  | ldyImm v => cases h; exact .registers s.a s.x _ s.sp _ s.pc
  | ldyZp z => cases h; exact .operand _ s.a s.x _ _
  | ldyZpx z => cases h; exact .operand _ s.a s.x _ _
  | ldyAbs addr => cases h; exact .operand _ s.a s.x _ _
  | ldyAbsx addr => cases h; exact .operand _ s.a s.x _ _
  | staZp z => cases h; exact .store _ _
  | staZpx z => cases h; exact .store _ _
  | staAbs addr => cases h; exact .store _ _
  | staAbsx addr => cases h; exact .store _ _
  | staAbsy addr => cases h; exact .store _ _
  | staIndx z => cases h; exact .store _ _
  | staIndy z => cases h; exact .store _ _
  | stxZp z => cases h; exact .store _ _
  | stxZpy z => cases h; exact .store _ _
  | stxAbs addr => cases h; exact .store _ _
  | styZp z => cases h; exact .store _ _
  | styZpx z => cases h; exact .store _ _
  | styAbs addr => cases h; exact .store _ _
  | tax => cases h; exact .registers s.a _ s.y s.sp _ s.pc
  | tay => cases h; exact .registers s.a s.x _ s.sp _ s.pc
  | txa => cases h; exact .registers _ s.x s.y s.sp _ s.pc
  | tya => cases h; exact .registers _ s.x s.y s.sp _ s.pc
  | tsx => cases h; exact .registers s.a _ s.y s.sp _ s.pc
  | txs => cases h; exact .registers s.a s.x s.y _ s.p s.pc
  | clc => cases h; exact .registers s.a s.x s.y s.sp _ s.pc
  | sec => cases h; exact .registers s.a s.x s.y s.sp _ s.pc
  | cli => cases h; exact .registers s.a s.x s.y s.sp _ s.pc
  | sei => cases h; exact .registers s.a s.x s.y s.sp _ s.pc
  | cld => cases h; exact .registers s.a s.x s.y s.sp _ s.pc
  | sed => cases h; exact .registers s.a s.x s.y s.sp _ s.pc
  | clv => cases h; exact .registers s.a s.x s.y s.sp _ s.pc
  | bpl off => cases h; exact branchIf_shape _ _ s
  | bmi off => cases h; exact branchIf_shape _ _ s
  | bvc off => cases h; exact branchIf_shape _ _ s
  | bvs off => cases h; exact branchIf_shape _ _ s
  | bcc off => cases h; exact branchIf_shape _ _ s
  | bcs off => cases h; exact branchIf_shape _ _ s
  | bne off => cases h; exact branchIf_shape _ _ s
  | beq off => cases h; exact branchIf_shape _ _ s
  | jmpAbs addr => cases h; exact .registers s.a s.x s.y s.sp s.p _
  | jmpInd ptr => cases h; exact .indirectJump _
  | jsr addr => cases h; exact .call _ _
  | rts => cases h; exact .ret _
  | pha => cases h; exact .pushes _
  | pla => cases h; exact .pulls _ _
  | php => cases h; exact .pushes _
  | plp => cases h; exact .pulls s.a _
  | brk => cases h; exact .trap
  | rti => cases h; exact .trapReturn
  | nop => cases h; exact .registers s.a s.x s.y s.sp s.p s.pc
  | unrecognised op => cases h; exact .registers s.a s.x s.y s.sp s.p s.pc

/-- What every shape keeps: the bindings, the configuration check, the canonical form, write-ignoring memory, the
parameters, and every byte of memory but the stored ones. -/
theorem ExecShape.keeps {s t : State} {stored : List Addr} (h : ExecShape s stored t) :
    s.bus.Evolves t.bus ∧ t.config = s.config ∧ t.resetDone = s.resetDone ∧ memoryKeptBut stored s.bus t.bus := by
  have reads : ∀ {l : List Addr} {b : Bus}, s.bus.ReadsOnly b → memoryKeptBut l s.bus b :=
    fun hb y hy _ => hb.peek y hy
  have writes : ∀ {l : List Addr} {b : Bus} (x : Addr) (v : Byte), s.bus.Evolves b → memoryKeptBut l s.bus b →
      x ∈ l → memoryKeptBut l s.bus (b.write x v) := fun x v he hk hx y hy hn =>
    (Bus.peek_write_other v ((he.plain y).trans hy) (fun hc : y = x => hn (hc ▸ hx))).trans (hk y hy hn)
  cases h with
  | registers a x y sp p pc => exact ⟨Bus.Evolves.refl _, rfl, rfl, fun _ _ _ => rfl⟩
  | operand m a x y p =>
    exact ⟨(loadByte_readsOnly m s).toEvolves, rfl, rfl, reads (loadByte_readsOnly m s)⟩
  | modify f m =>
    exact ⟨modifyByte_evolves f m s, rfl, rfl,
      writes _ _ (loadByte_readsOnly m s).toEvolves (reads (loadByte_readsOnly m s)) (by simp)⟩
  | store m v =>
    exact ⟨storeByte_evolves m v s, rfl, rfl,
      writes _ _ (effectiveAddr_readsOnly m s).toEvolves (reads (effectiveAddr_readsOnly m s)) (by simp)⟩
  | indirectJump ptr =>
    exact ⟨(indirectTarget_readsOnly ptr s).toEvolves, rfl, rfl, reads (indirectTarget_readsOnly ptr s)⟩
  | pushes v =>
    exact ⟨push_evolves v s, rfl, rfl, writes _ _ (Bus.Evolves.refl _) (reads (Bus.ReadsOnly.refl _)) (by simp)⟩
  | pulls a p => exact ⟨(pull_readsOnly s).toEvolves, rfl, rfl, reads (pull_readsOnly s)⟩
  | call w target =>
    refine ⟨pushWord_evolves w s, rfl, rfl, ?_⟩
    exact writes _ _ (Bus.evolves_write _ _ _)
      (writes _ _ (Bus.Evolves.refl _) (reads (Bus.ReadsOnly.refl _)) (by simp)) (by simp)
  | ret pc => exact ⟨(pullWord_readsOnly s).toEvolves, rfl, rfl, reads (pullWord_readsOnly s)⟩
  | trap =>
    refine ⟨takeBreak_evolves s, takeBreak_config s, takeBreak_resetDone s, ?_⟩
    have e : s.sp - 1 - 1 = s.sp - 2 := by simp [BitVec.sub_sub]
    have e1 := Bus.evolves_write s.bus (stackAddr s.sp) (hiByte (s.pc + 1))
    have e2 := e1.trans (Bus.evolves_write _ (stackAddr (s.sp - 1)) (loByte (s.pc + 1)))
    have e3 := e2.trans
      (Bus.evolves_write _ (stackAddr (s.sp - 2)) (pushedStatus (setFlag .brk true s.p)))
    rw [takeBreak_bus, e]
    intro y hy hn
    rw [(Bus.readsOnly_readPair _ _ _).peek y ((e3.plain y).trans hy)]
    exact writes _ _ e2 (writes _ _ e1 (writes _ _ (Bus.Evolves.refl _) (reads (Bus.ReadsOnly.refl _)) (by simp))
      (by simp)) (by simp) y hy hn
  | trapReturn => exact ⟨(returnFromBreak_readsOnly s).toEvolves, rfl, rfl, reads (returnFromBreak_readsOnly s)⟩

end Sys2Proof.Machine
end

