-- ==== Sys2Proof/Tests/Slice0.lean ====
section
/-!
SUPPORT. The model's own tests. Words are written out from 30_encoding R61 and R79; the vectors and their results are
those of spec/95_test_vectors.md; the witnesses show states that meet the hypotheses of the statements.
-/

namespace Sys2Proof.Tests

open Sys2Proof Sys2Proof.Machine Sys2Proof.Claims

/-! ## WellFormed -/

/-- A recognised opcode byte is not an unrecognised instruction (30_encoding R81): the one check, refused. -/
theorem test_wf_refuses_a_recognised_byte : Instr.wf (.unrecognised 0xA9) = false := by decide

theorem test_wf_refuses_brk_as_unrecognised : Instr.wf (.unrecognised 0x00) = false := by decide

theorem test_wf_accepts : Instr.wf (.unrecognised 0x02) = true ∧ Instr.wf (.ldaImm 0xFF) = true := by decide

/-! ## Decoding: opcode byte in bits 7..0, operand 0x34 or 0x1234 low byte first (30_encoding R61) -/

/-- A word of so many bits and the instruction it stands for. -/
abbrev Row := Nat × Nat × Instr

def Row.ok (r : Row) : Bool := decide (decodeTableWord r.1 r.2.1 = some r.2.2)

def arithmeticRows1 : List Row := [
  (16, 0x3469, .adcImm 0x34), (16, 0x3465, .adcZp 0x34), (16, 0x3475, .adcZpx 0x34), (24, 0x12346D, .adcAbs 0x1234),
  (24, 0x12347D, .adcAbsx 0x1234), (24, 0x123479, .adcAbsy 0x1234), (16, 0x3461, .adcIndx 0x34),
  (16, 0x3471, .adcIndy 0x34), (16, 0x34E9, .sbcImm 0x34), (16, 0x34E5, .sbcZp 0x34), (16, 0x34F5, .sbcZpx 0x34),
  (24, 0x1234ED, .sbcAbs 0x1234), (24, 0x1234FD, .sbcAbsx 0x1234), (24, 0x1234F9, .sbcAbsy 0x1234),
  (16, 0x34E1, .sbcIndx 0x34), (16, 0x34F1, .sbcIndy 0x34), (16, 0x34C9, .cmpImm 0x34), (16, 0x34C5, .cmpZp 0x34),
  (16, 0x34D5, .cmpZpx 0x34), (24, 0x1234CD, .cmpAbs 0x1234), (24, 0x1234DD, .cmpAbsx 0x1234),
  (24, 0x1234D9, .cmpAbsy 0x1234), (16, 0x34C1, .cmpIndx 0x34), (16, 0x34D1, .cmpIndy 0x34)]

def arithmeticRows2 : List Row := [
  (16, 0x34E0, .cpxImm 0x34), (16, 0x34E4, .cpxZp 0x34), (24, 0x1234EC, .cpxAbs 0x1234), (16, 0x34C0, .cpyImm 0x34),
  (16, 0x34C4, .cpyZp 0x34), (24, 0x1234CC, .cpyAbs 0x1234), (16, 0x34E6, .incZp 0x34), (16, 0x34F6, .incZpx 0x34),
  (24, 0x1234EE, .incAbs 0x1234), (24, 0x1234FE, .incAbsx 0x1234), (16, 0x34C6, .decZp 0x34),
  (16, 0x34D6, .decZpx 0x34), (24, 0x1234CE, .decAbs 0x1234), (24, 0x1234DE, .decAbsx 0x1234), (8, 0xE8, .inx),
  (8, 0xC8, .iny), (8, 0xCA, .dex), (8, 0x88, .dey)]

theorem test_decode_arithmeticRows1 : arithmeticRows1.all Row.ok = true := by decide

theorem test_decode_arithmeticRows2 : arithmeticRows2.all Row.ok = true := by decide

def logicRows1 : List Row := [
  (16, 0x3429, .andImm 0x34), (16, 0x3425, .andZp 0x34), (16, 0x3435, .andZpx 0x34), (24, 0x12342D, .andAbs 0x1234),
  (24, 0x12343D, .andAbsx 0x1234), (24, 0x123439, .andAbsy 0x1234), (16, 0x3421, .andIndx 0x34),
  (16, 0x3431, .andIndy 0x34), (16, 0x3409, .oraImm 0x34), (16, 0x3405, .oraZp 0x34), (16, 0x3415, .oraZpx 0x34),
  (24, 0x12340D, .oraAbs 0x1234), (24, 0x12341D, .oraAbsx 0x1234), (24, 0x123419, .oraAbsy 0x1234),
  (16, 0x3401, .oraIndx 0x34), (16, 0x3411, .oraIndy 0x34), (16, 0x3449, .eorImm 0x34), (16, 0x3445, .eorZp 0x34),
  (16, 0x3455, .eorZpx 0x34), (24, 0x12344D, .eorAbs 0x1234), (24, 0x12345D, .eorAbsx 0x1234),
  (24, 0x123459, .eorAbsy 0x1234), (16, 0x3441, .eorIndx 0x34), (16, 0x3451, .eorIndy 0x34)]

def logicRows2 : List Row := [
  (16, 0x3424, .bitZp 0x34), (24, 0x12342C, .bitAbs 0x1234), (8, 0x0A, .aslAcc), (16, 0x3406, .aslZp 0x34),
  (16, 0x3416, .aslZpx 0x34), (24, 0x12340E, .aslAbs 0x1234), (24, 0x12341E, .aslAbsx 0x1234), (8, 0x4A, .lsrAcc),
  (16, 0x3446, .lsrZp 0x34), (16, 0x3456, .lsrZpx 0x34), (24, 0x12344E, .lsrAbs 0x1234),
  (24, 0x12345E, .lsrAbsx 0x1234), (8, 0x2A, .rolAcc), (16, 0x3426, .rolZp 0x34), (16, 0x3436, .rolZpx 0x34),
  (24, 0x12342E, .rolAbs 0x1234), (24, 0x12343E, .rolAbsx 0x1234), (8, 0x6A, .rorAcc), (16, 0x3466, .rorZp 0x34),
  (16, 0x3476, .rorZpx 0x34), (24, 0x12346E, .rorAbs 0x1234), (24, 0x12347E, .rorAbsx 0x1234)]

theorem test_decode_logicRows1 : logicRows1.all Row.ok = true := by decide

theorem test_decode_logicRows2 : logicRows2.all Row.ok = true := by decide

def moveRows1 : List Row := [
  (16, 0x34A9, .ldaImm 0x34), (16, 0x34A5, .ldaZp 0x34), (16, 0x34B5, .ldaZpx 0x34), (24, 0x1234AD, .ldaAbs 0x1234),
  (24, 0x1234BD, .ldaAbsx 0x1234), (24, 0x1234B9, .ldaAbsy 0x1234), (16, 0x34A1, .ldaIndx 0x34),
  (16, 0x34B1, .ldaIndy 0x34), (16, 0x34A2, .ldxImm 0x34), (16, 0x34A6, .ldxZp 0x34), (16, 0x34B6, .ldxZpy 0x34),
  (24, 0x1234AE, .ldxAbs 0x1234), (24, 0x1234BE, .ldxAbsy 0x1234), (16, 0x34A0, .ldyImm 0x34),
  (16, 0x34A4, .ldyZp 0x34), (16, 0x34B4, .ldyZpx 0x34), (24, 0x1234AC, .ldyAbs 0x1234),
  (24, 0x1234BC, .ldyAbsx 0x1234), (16, 0x3485, .staZp 0x34), (16, 0x3495, .staZpx 0x34),
  (24, 0x12348D, .staAbs 0x1234), (24, 0x12349D, .staAbsx 0x1234), (24, 0x123499, .staAbsy 0x1234),
  (16, 0x3481, .staIndx 0x34)]

def moveRows2 : List Row := [
  (16, 0x3491, .staIndy 0x34), (16, 0x3486, .stxZp 0x34), (16, 0x3496, .stxZpy 0x34), (24, 0x12348E, .stxAbs 0x1234),
  (16, 0x3484, .styZp 0x34), (16, 0x3494, .styZpx 0x34), (24, 0x12348C, .styAbs 0x1234), (8, 0xAA, .tax),
  (8, 0xA8, .tay), (8, 0x8A, .txa), (8, 0x98, .tya), (8, 0xBA, .tsx), (8, 0x9A, .txs)]

theorem test_decode_moveRows1 : moveRows1.all Row.ok = true := by decide

theorem test_decode_moveRows2 : moveRows2.all Row.ok = true := by decide

def flagOpsRows : List Row := [
  (8, 0x18, .clc), (8, 0x38, .sec), (8, 0x58, .cli), (8, 0x78, .sei), (8, 0xD8, .cld), (8, 0xF8, .sed),
  (8, 0xB8, .clv)]

theorem test_decode_flagOpsRows : flagOpsRows.all Row.ok = true := by decide

def controlRows : List Row := [
  (16, 0x3410, .bpl 0x34), (16, 0x3430, .bmi 0x34), (16, 0x3450, .bvc 0x34), (16, 0x3470, .bvs 0x34),
  (16, 0x3490, .bcc 0x34), (16, 0x34B0, .bcs 0x34), (16, 0x34D0, .bne 0x34), (16, 0x34F0, .beq 0x34),
  (24, 0x12344C, .jmpAbs 0x1234), (24, 0x12346C, .jmpInd 0x1234), (24, 0x123420, .jsr 0x1234), (8, 0x60, .rts)]

theorem test_decode_controlRows : controlRows.all Row.ok = true := by decide

def stackRows : List Row := [
  (8, 0x48, .pha), (8, 0x68, .pla), (8, 0x08, .php), (8, 0x28, .plp), (8, 0x00, .brk), (8, 0x40, .rti),
  (8, 0xEA, .nop)]

theorem test_decode_stackRows : stackRows.all Row.ok = true := by decide

/-- The bytes without a mnemonic (30_encoding R81): alone, and with a byte after them that is not consumed. -/
theorem test_decode_unrecognised :
    decodeTableWord 8 0x02 = some (.unrecognised 0x02) ∧ decodeTableWord 8 0xFF = some (.unrecognised 0xFF) ∧
    decodeTableWord 8 0x1A = some (.unrecognised 0x1A) ∧ decodeTableWord 8 0xEB = some (.unrecognised 0xEB) := by
  decide

/-- Missing bytes are rejected by name. -/
theorem test_decode_rejects :
    (match decode [] with | .error e => e == .noOpcode | .ok _ => false) = true ∧
    (match decode [0xAD, 0x00] with | .error e => e == .missingOperand 0xAD | .ok _ => false) = true := by decide

/-! ## Vectors of spec/95_test_vectors.md, Part 2: one step each -/

/-- A machine on the default platform (conventions of 95_test_vectors.md): registers, then memory as runs of bytes. -/
def machine (a x y sp p : Byte) (pc : Addr) (mem : List (Addr × List Byte)) : State :=
  { State.reset with
    a := a, x := x, y := y, sp := sp, p := p, pc := pc
    bus := mem.foldl (fun b r => loadBytes r.1.toNat r.2 b) State.defaultBus }

/-- A vector: the state before the step, the registers after it, the bytes it writes in order, and its cycle count. -/
structure Vec where
  pre    : State
  a      : Byte
  x      : Byte
  y      : Byte
  sp     : Byte
  p      : Byte
  pc     : Addr
  writes : List (Addr × Byte)
  cycles : Nat

/-- The whole next state is compared, all of memory with it. -/
def Vec.passes (v : Vec) : Bool :=
  match step v.pre with
  | .next t =>
    decide (t = { v.pre with
      a := v.a, x := v.x, y := v.y, sp := v.sp, p := v.p, pc := v.pc
      bus := v.writes.foldl (fun b w => b.write w.1 w.2) v.pre.bus }) &&
    decide (stepCycles v.pre = v.cycles)
  | .fault _ => false
  | .refused _ => false

def arithmeticVectors : List Vec := [
  -- V01
  ⟨machine 0xFF 0x00 0x00 0xFD 0x24 0x0200 [(0x0200, [0x69, 0x01])],
    0x00, 0x00, 0x00, 0xFD, 0x27, 0x0202, [], 2⟩,
  -- V02
  ⟨machine 0x7F 0x00 0x00 0xFD 0x24 0x0200 [(0x0200, [0x69, 0x01])],
    0x80, 0x00, 0x00, 0xFD, 0xE4, 0x0202, [], 2⟩,
  -- V03
  ⟨machine 0x80 0x00 0x00 0xFD 0x24 0x0200 [(0x0200, [0x69, 0x80])],
    0x00, 0x00, 0x00, 0xFD, 0x67, 0x0202, [], 2⟩,
  -- V04
  ⟨machine 0x00 0x00 0x00 0xFD 0x25 0x0200 [(0x0200, [0x69, 0xFF])],
    0x00, 0x00, 0x00, 0xFD, 0x27, 0x0202, [], 2⟩,
  -- V05
  ⟨machine 0x09 0x00 0x00 0xFD 0x2C 0x0200 [(0x0200, [0x69, 0x01])],
    0x0A, 0x00, 0x00, 0xFD, 0x2C, 0x0202, [], 2⟩,
  -- V06
  ⟨machine 0x50 0x00 0x00 0xFD 0x25 0x0200 [(0x0200, [0xE9, 0xB0])],
    0xA0, 0x00, 0x00, 0xFD, 0xE4, 0x0202, [], 2⟩,
  -- V07
  ⟨machine 0x80 0x00 0x00 0xFD 0x25 0x0200 [(0x0200, [0xE9, 0x01])],
    0x7F, 0x00, 0x00, 0xFD, 0x65, 0x0202, [], 2⟩,
  -- V08
  ⟨machine 0x00 0x00 0x00 0xFD 0x24 0x0200 [(0x0200, [0xE9, 0x00])],
    0xFF, 0x00, 0x00, 0xFD, 0xA4, 0x0202, [], 2⟩,
  -- V09
  ⟨machine 0x05 0x00 0x00 0xFD 0x25 0x0200 [(0x0200, [0xE9, 0x05])],
    0x00, 0x00, 0x00, 0xFD, 0x27, 0x0202, [], 2⟩,
  -- V10
  ⟨machine 0x10 0x00 0x00 0xFD 0x24 0x0200 [(0x0200, [0xC9, 0x10])],
    0x10, 0x00, 0x00, 0xFD, 0x27, 0x0202, [], 2⟩,
  -- V11
  ⟨machine 0x10 0x00 0x00 0xFD 0x24 0x0200 [(0x0200, [0xC9, 0x20])],
    0x10, 0x00, 0x00, 0xFD, 0xA4, 0x0202, [], 2⟩,
  -- V12
  ⟨machine 0x20 0x00 0x00 0xFD 0x24 0x0200 [(0x0200, [0xC9, 0x10])],
    0x20, 0x00, 0x00, 0xFD, 0x25, 0x0202, [], 2⟩,
  -- V13
  ⟨machine 0x00 0x00 0x00 0xFD 0x24 0x0200 [(0x0200, [0xE0, 0x01])],
    0x00, 0x00, 0x00, 0xFD, 0xA4, 0x0202, [], 2⟩,
  -- V14
  ⟨machine 0x00 0x00 0x80 0xFD 0x24 0x0200 [(0x0200, [0xC0, 0x7F])],
    0x00, 0x00, 0x80, 0xFD, 0x25, 0x0202, [], 2⟩,
  -- V15
  ⟨machine 0x00 0x00 0x00 0xFD 0x24 0x0200 [(0x0040, [0xFF]), (0x0200, [0xE6, 0x40])],
    0x00, 0x00, 0x00, 0xFD, 0x26, 0x0202, [(0x0040, 0x00)], 5⟩,
  -- V16
  ⟨machine 0x00 0x00 0x00 0xFD 0x24 0x0200 [(0x3000, [0x00]), (0x0200, [0xCE, 0x00, 0x30])],
    0x00, 0x00, 0x00, 0xFD, 0xA4, 0x0203, [(0x3000, 0xFF)], 6⟩,
  -- V17
  ⟨machine 0x00 0xFF 0x00 0xFD 0x24 0x0200 [(0x0200, [0xE8])],
    0x00, 0x00, 0x00, 0xFD, 0x26, 0x0201, [], 2⟩,
  -- V18
  ⟨machine 0x00 0x00 0x7F 0xFD 0x24 0x0200 [(0x0200, [0xC8])],
    0x00, 0x00, 0x80, 0xFD, 0xA4, 0x0201, [], 2⟩,
  -- V19
  ⟨machine 0x00 0x01 0x00 0xFD 0x24 0x0200 [(0x0200, [0xCA])],
    0x00, 0x00, 0x00, 0xFD, 0x26, 0x0201, [], 2⟩,
  -- V20
  ⟨machine 0x00 0x00 0x00 0xFD 0x24 0x0200 [(0x0200, [0x88])],
    0x00, 0x00, 0xFF, 0xFD, 0xA4, 0x0201, [], 2⟩]

theorem test_vectors_arithmetic : arithmeticVectors.all Vec.passes = true := by decide

def logicVectors : List Vec := [
  -- V21
  ⟨machine 0xF0 0x00 0x00 0xFD 0x24 0x0200 [(0x0200, [0x29, 0x0F])],
    0x00, 0x00, 0x00, 0xFD, 0x26, 0x0202, [], 2⟩,
  -- V22
  ⟨machine 0x80 0x00 0x00 0xFD 0x24 0x0200 [(0x0200, [0x09, 0x01])],
    0x81, 0x00, 0x00, 0xFD, 0xA4, 0x0202, [], 2⟩,
  -- V23
  ⟨machine 0xFF 0x00 0x00 0xFD 0x24 0x0200 [(0x0200, [0x49, 0xFF])],
    0x00, 0x00, 0x00, 0xFD, 0x26, 0x0202, [], 2⟩,
  -- V24
  ⟨machine 0x01 0x00 0x00 0xFD 0x24 0x0200 [(0x0050, [0xC0]), (0x0200, [0x24, 0x50])],
    0x01, 0x00, 0x00, 0xFD, 0xE6, 0x0202, [], 3⟩,
  -- V25
  ⟨machine 0x40 0x00 0x00 0xFD 0xE6 0x0200 [(0x4000, [0x40]), (0x0200, [0x2C, 0x00, 0x40])],
    0x40, 0x00, 0x00, 0xFD, 0x64, 0x0203, [], 4⟩,
  -- V26
  ⟨machine 0x81 0x00 0x00 0xFD 0x24 0x0200 [(0x0200, [0x0A])],
    0x02, 0x00, 0x00, 0xFD, 0x25, 0x0201, [], 2⟩,
  -- V27
  ⟨machine 0x01 0x00 0x00 0xFD 0x24 0x0200 [(0x0200, [0x4A])],
    0x00, 0x00, 0x00, 0xFD, 0x27, 0x0201, [], 2⟩,
  -- V28
  ⟨machine 0x80 0x00 0x00 0xFD 0x25 0x0200 [(0x0200, [0x2A])],
    0x01, 0x00, 0x00, 0xFD, 0x25, 0x0201, [], 2⟩,
  -- V29
  ⟨machine 0x01 0x00 0x00 0xFD 0x24 0x0200 [(0x0200, [0x6A])],
    0x00, 0x00, 0x00, 0xFD, 0x27, 0x0201, [], 2⟩,
  -- V30
  ⟨machine 0x00 0x00 0x00 0xFD 0x25 0x0200 [(0x0010, [0x00]), (0x0200, [0x66, 0x10])],
    0x00, 0x00, 0x00, 0xFD, 0xA4, 0x0202, [(0x0010, 0x80)], 5⟩,
  -- V31
  ⟨machine 0x00 0x01 0x00 0xFD 0x24 0x0200 [(0x1100, [0x40]), (0x0200, [0x1E, 0xFF, 0x10])],
    0x00, 0x01, 0x00, 0xFD, 0xA4, 0x0203, [(0x1100, 0x80)], 7⟩]

theorem test_vectors_logic : logicVectors.all Vec.passes = true := by decide

def movesVectors : List Vec := [
  -- V32
  ⟨machine 0x00 0x02 0x00 0xFD 0x24 0x0200 [(0x0001, [0x77]), (0x0200, [0xB5, 0xFF])],
    0x77, 0x02, 0x00, 0xFD, 0x24, 0x0202, [], 4⟩,
  -- V33
  ⟨machine 0x00 0x00 0x02 0xFD 0x24 0x0200 [(0x0001, [0x88]), (0x0200, [0xB6, 0xFF])],
    0x00, 0x88, 0x02, 0xFD, 0xA4, 0x0202, [], 4⟩,
  -- V34
  ⟨machine 0x00 0x01 0x00 0xFD 0x24 0x0200 [(0x1100, [0x11]), (0x0200, [0xBD, 0xFF, 0x10])],
    0x11, 0x01, 0x00, 0xFD, 0x24, 0x0203, [], 5⟩,
  -- V35
  ⟨machine 0x00 0x00 0x01 0xFD 0x24 0x0200 [(0x0000, [0x5A]), (0x0200, [0xB9, 0xFF, 0xFF])],
    0x5A, 0x00, 0x01, 0xFD, 0x24, 0x0203, [], 5⟩,
  -- V36
  ⟨machine 0x00 0x01 0x00 0xFD 0x24 0x0200 [(0x00FF, [0x34]), (0x0000, [0x12]), (0x1234, [0x99]), (0x0200, [0xA1, 0xFE])],
    0x99, 0x01, 0x00, 0xFD, 0xA4, 0x0202, [], 6⟩,
  -- V37
  ⟨machine 0x00 0x00 0x10 0xFD 0x24 0x0200 [(0x00FF, [0xF8]), (0x0000, [0x20]), (0x2108, [0x66]), (0x0200, [0xB1, 0xFF])],
    0x66, 0x00, 0x10, 0xFD, 0x24, 0x0202, [], 6⟩,
  -- V38
  ⟨machine 0xAB 0x00 0x10 0xFD 0x24 0x0200 [(0x0040, [0xF8, 0x20]), (0x0200, [0x91, 0x40])],
    0xAB, 0x00, 0x10, 0xFD, 0x24, 0x0202, [(0x2108, 0xAB)], 6⟩,
  -- V39
  ⟨machine 0x69 0x00 0x00 0xFD 0x24 0x0200 [(0x0200, [0x8D, 0x00, 0x02])],
    0x69, 0x00, 0x00, 0xFD, 0x24, 0x0203, [(0x0200, 0x69)], 4⟩,
  -- V40
  ⟨machine 0x00 0x12 0xF0 0xFD 0x24 0x0200 [(0x0200, [0x96, 0x20])],
    0x00, 0x12, 0xF0, 0xFD, 0x24, 0x0202, [(0x0010, 0x12)], 4⟩,
  -- V41
  ⟨machine 0x00 0x01 0x34 0xFD 0x24 0x0200 [(0x0200, [0x94, 0xFF])],
    0x00, 0x01, 0x34, 0xFD, 0x24, 0x0202, [(0x0000, 0x34)], 4⟩,
  -- V42
  ⟨machine 0x00 0x00 0x00 0xFD 0x24 0x0200 [(0x0200, [0xA0, 0x00])],
    0x00, 0x00, 0x00, 0xFD, 0x26, 0x0202, [], 2⟩,
  -- V43
  ⟨machine 0x80 0x00 0x00 0xFD 0x24 0x0200 [(0x0200, [0xAA])],
    0x80, 0x80, 0x00, 0xFD, 0xA4, 0x0201, [], 2⟩,
  -- V44
  ⟨machine 0x00 0x00 0x00 0xFD 0x24 0x0200 [(0x0200, [0xBA])],
    0x00, 0xFD, 0x00, 0xFD, 0xA4, 0x0201, [], 2⟩,
  -- V45
  ⟨machine 0x00 0x00 0x00 0xFD 0x24 0x0200 [(0x0200, [0x9A])],
    0x00, 0x00, 0x00, 0x00, 0x24, 0x0201, [], 2⟩,
  -- V46
  ⟨machine 0x00 0x00 0x00 0xFD 0x24 0x0200 [(0x0200, [0x8A])],
    0x00, 0x00, 0x00, 0xFD, 0x26, 0x0201, [], 2⟩,
  -- V47
  ⟨machine 0x00 0x00 0xFF 0xFD 0x24 0x0200 [(0x0200, [0x98])],
    0xFF, 0x00, 0xFF, 0xFD, 0xA4, 0x0201, [], 2⟩,
  -- V48
  ⟨machine 0x00 0x00 0x00 0xFD 0x24 0x0200 [(0x0200, [0xA8])],
    0x00, 0x00, 0x00, 0xFD, 0x26, 0x0201, [], 2⟩]

theorem test_vectors_moves : movesVectors.all Vec.passes = true := by decide

def flagsVectors : List Vec := [
  -- V49
  ⟨machine 0x00 0x00 0x00 0xFD 0x25 0x0200 [(0x0200, [0x18])],
    0x00, 0x00, 0x00, 0xFD, 0x24, 0x0201, [], 2⟩,
  -- V50
  ⟨machine 0x00 0x00 0x00 0xFD 0x24 0x0200 [(0x0200, [0x38])],
    0x00, 0x00, 0x00, 0xFD, 0x25, 0x0201, [], 2⟩,
  -- V51
  ⟨machine 0x00 0x00 0x00 0xFD 0x24 0x0200 [(0x0200, [0x58])],
    0x00, 0x00, 0x00, 0xFD, 0x20, 0x0201, [], 2⟩,
  -- V52
  ⟨machine 0x00 0x00 0x00 0xFD 0x20 0x0200 [(0x0200, [0x78])],
    0x00, 0x00, 0x00, 0xFD, 0x24, 0x0201, [], 2⟩,
  -- V53
  ⟨machine 0x00 0x00 0x00 0xFD 0x2C 0x0200 [(0x0200, [0xD8])],
    0x00, 0x00, 0x00, 0xFD, 0x24, 0x0201, [], 2⟩,
  -- V54
  ⟨machine 0x00 0x00 0x00 0xFD 0x24 0x0200 [(0x0200, [0xF8])],
    0x00, 0x00, 0x00, 0xFD, 0x2C, 0x0201, [], 2⟩,
  -- V55
  ⟨machine 0x00 0x00 0x00 0xFD 0x64 0x0200 [(0x0200, [0xB8])],
    0x00, 0x00, 0x00, 0xFD, 0x24, 0x0201, [], 2⟩]

theorem test_vectors_flags : flagsVectors.all Vec.passes = true := by decide

def controlVectors : List Vec := [
  -- V56
  ⟨machine 0x00 0x00 0x00 0xFD 0x24 0x0200 [(0x0200, [0xD0, 0x05])],
    0x00, 0x00, 0x00, 0xFD, 0x24, 0x0207, [], 3⟩,
  -- V57
  ⟨machine 0x00 0x00 0x00 0xFD 0x24 0x0200 [(0x0200, [0xF0, 0x05])],
    0x00, 0x00, 0x00, 0xFD, 0x24, 0x0202, [], 2⟩,
  -- V58
  ⟨machine 0x00 0x00 0x00 0xFD 0x25 0x0200 [(0x0200, [0xB0, 0x80])],
    0x00, 0x00, 0x00, 0xFD, 0x25, 0x0182, [], 4⟩,
  -- V59
  ⟨machine 0x00 0x00 0x00 0xFD 0x24 0x0200 [(0x0200, [0x10, 0xFE])],
    0x00, 0x00, 0x00, 0xFD, 0x24, 0x0200, [], 3⟩,
  -- V60
  ⟨machine 0x00 0x00 0x00 0xFD 0x64 0x0200 [(0x0200, [0x70, 0x00])],
    0x00, 0x00, 0x00, 0xFD, 0x64, 0x0202, [], 3⟩,
  -- V61
  ⟨machine 0x00 0x00 0x00 0xFD 0xA4 0x02F0 [(0x02F0, [0x30, 0x7F])],
    0x00, 0x00, 0x00, 0xFD, 0xA4, 0x0371, [], 4⟩,
  -- V62
  ⟨machine 0x00 0x00 0x00 0xFD 0x24 0xFFFC [(0xFFFC, [0x90, 0x02])],
    0x00, 0x00, 0x00, 0xFD, 0x24, 0x0000, [], 4⟩,
  -- V63
  ⟨machine 0x00 0x00 0x00 0xFD 0x64 0x0200 [(0x0200, [0x50, 0x10])],
    0x00, 0x00, 0x00, 0xFD, 0x64, 0x0202, [], 2⟩,
  -- V64
  ⟨machine 0x00 0x00 0x00 0xFD 0x24 0x0200 [(0x0200, [0x4C, 0x34, 0x12])],
    0x00, 0x00, 0x00, 0xFD, 0x24, 0x1234, [], 3⟩,
  -- V65
  ⟨machine 0x00 0x00 0x00 0xFD 0x24 0x0200 [(0x10FF, [0x34]), (0x1000, [0x12]), (0x1100, [0x56]), (0x0200, [0x6C, 0xFF, 0x10])],
    0x00, 0x00, 0x00, 0xFD, 0x24, 0x1234, [], 5⟩,
  -- V66
  ⟨{ machine 0x00 0x00 0x00 0xFD 0x24 0x0200 [(0x10FF, [0x34]), (0x1000, [0x12]), (0x1100, [0x56]), (0x0200, [0x6C, 0xFF, 0x10])] with config := { Config.atReset with jmpBug := false } },
    0x00, 0x00, 0x00, 0xFD, 0x24, 0x5634, [], 5⟩,
  -- V67
  ⟨machine 0x00 0x00 0x00 0xFD 0x24 0x0200 [(0x0020, [0x00, 0x90]), (0x0200, [0x6C, 0x20, 0x00])],
    0x00, 0x00, 0x00, 0xFD, 0x24, 0x9000, [], 5⟩,
  -- V68
  ⟨machine 0x00 0x00 0x00 0x00 0x24 0x0200 [(0x0200, [0x20, 0x00, 0x40])],
    0x00, 0x00, 0x00, 0xFE, 0x24, 0x4000, [(0x0100, 0x02), (0x01FF, 0x02)], 6⟩,
  -- V69
  ⟨machine 0x00 0x00 0x00 0xFB 0x24 0x0200 [(0x01FC, [0xFF, 0xFF]), (0x0200, [0x60])],
    0x00, 0x00, 0x00, 0xFD, 0x24, 0x0000, [], 6⟩]

theorem test_vectors_control : controlVectors.all Vec.passes = true := by decide

def stackVectors : List Vec := [
  -- V70
  ⟨machine 0x69 0x00 0x00 0x00 0x24 0x0200 [(0x0200, [0x48])],
    0x69, 0x00, 0x00, 0xFF, 0x24, 0x0201, [(0x0100, 0x69)], 3⟩,
  -- V71
  ⟨machine 0x00 0x00 0x00 0xFF 0x24 0x0200 [(0x0100, [0x00]), (0x0200, [0x68])],
    0x00, 0x00, 0x00, 0x00, 0x26, 0x0201, [], 4⟩,
  -- V72
  ⟨machine 0x00 0x00 0x00 0xFD 0x00 0x0200 [(0x0200, [0x08])],
    0x00, 0x00, 0x00, 0xFC, 0x00, 0x0201, [(0x01FD, 0x30)], 3⟩,
  -- V73
  ⟨machine 0x00 0x00 0x00 0xFC 0x24 0x0200 [(0x01FD, [0x00]), (0x0200, [0x28])],
    0x00, 0x00, 0x00, 0xFD, 0x20, 0x0201, [], 4⟩,
  -- V74
  ⟨machine 0x00 0x00 0x00 0xFC 0x24 0x0200 [(0x01FD, [0xFF]), (0x0200, [0x28])],
    0x00, 0x00, 0x00, 0xFD, 0xFF, 0x0201, [], 4⟩,
  -- V75
  ⟨machine 0x00 0x00 0x00 0xFD 0x20 0x0200 [(0xFFFE, [0x00, 0x06]), (0x0200, [0x00])],
    0x00, 0x00, 0x00, 0xFA, 0x34, 0x0600, [(0x01FD, 0x02), (0x01FC, 0x02), (0x01FB, 0x30)], 7⟩,
  -- V76
  ⟨machine 0x00 0x00 0x00 0xFA 0x24 0x0200 [(0x01FB, [0xDF, 0x34, 0x12]), (0x0200, [0x40])],
    0x00, 0x00, 0x00, 0xFD, 0xCF, 0x1234, [], 6⟩,
  -- V77
  ⟨machine 0x00 0x00 0x00 0xFD 0x24 0x0200 [(0x0200, [0xEA])],
    0x00, 0x00, 0x00, 0xFD, 0x24, 0x0201, [], 1⟩,
  -- V78
  ⟨machine 0x00 0x00 0x00 0xFD 0x24 0x0200 [(0x0200, [0x02, 0xFF])],
    0x00, 0x00, 0x00, 0xFD, 0x24, 0x0201, [], 1⟩,
  -- V79
  ⟨machine 0x00 0x00 0x00 0xFD 0x24 0x0200 [(0x0200, [0xFF])],
    0x00, 0x00, 0x00, 0xFD, 0x24, 0x0201, [], 1⟩,
  -- V80
  ⟨machine 0x00 0x00 0x00 0x01 0x24 0x0300 [(0xFFFE, [0x00, 0x06]), (0x0300, [0x00])],
    0x00, 0x00, 0x00, 0xFE, 0x34, 0x0600, [(0x0101, 0x03), (0x0100, 0x02), (0x01FF, 0x34)], 7⟩]

theorem test_vectors_stack : stackVectors.all Vec.passes = true := by decide
/-! ## The bus (20_memory R41 to R47) and the memory form -/

/-- Two overlapping RAMs over 0x1000..0x10FF and 0x1080..0x11FF, a write-ignoring memory at 0x8000..0x80FF, and an empty
range (start above end). -/
def overlapBus : Bus := [
  { first := 0x1000, last := 0x10FF, device := .ram 256 [(0x80, 0x11)] },
  { first := 0x1080, last := 0x11FF, device := .ram 384 [(0, 0x22), (0x80, 0x33)] },
  { first := 0x8000, last := 0x80FF, device := .rom 256 [(5, 0x44)] },
  { first := 0x9001, last := 0x9000, device := .ram 1 [(0, 0x55)] }]

theorem test_bus_first_match_wins :
    overlapBus.peek 0x1080 = 0x11 ∧ overlapBus.peek 0x1100 = 0x33 ∧
    (overlapBus.write 0x1080 0x77).peek 0x1080 = 0x77 := by decide

theorem test_bus_unmapped_reads_zero_and_drops :
    overlapBus.peek 0x9000 = 0x00 ∧ overlapBus.peek 0x9001 = 0x00 ∧ overlapBus.write 0x9001 0x66 = overlapBus := by
  decide

theorem test_bus_write_ignoring_memory :
    overlapBus.peek 0x8005 = 0x44 ∧ overlapBus.write 0x8005 0x66 = overlapBus := by decide

theorem test_bus_configuration_check :
    overlapBus.fits = true ∧ overlapBus.wf = true ∧
    Bus.fits [{ first := 0x0000, last := 0x0100, device := .ram 256 [] }] = false := by decide

theorem test_memory_write_of_unlisted_value_removes_the_entry :
    Memory.write [(1, 0x11), (5, 0x22)] 5 0x00 = [(1, 0x11)] ∧
    Memory.write [(1, 0x11), (5, 0x22)] 3 0x33 = [(1, 0x11), (3, 0x33), (5, 0x22)] := by decide

theorem test_memory_wf_refuses :
    Memory.wf [(5, 0x22), (1, 0x11)] = false ∧ Memory.wf [(1, 0x00)] = false ∧ Memory.wf [(1, 0x11), (1, 0x12)] = false :=
  by decide

/-! ## Reset, host operations and fetch words (95_test_vectors S-A, S-X1, H1 to H5) -/

/-- The state an operation leaves, if it leaves one. -/
def left {α φ ρ : Type} : Host.Outcome α φ ρ → Option α
  | .next s => some s
  | .fault _ => none
  | .refused _ => none

/-- A machine whose memory holds the given bytes and whose registers hold values that reset must replace. -/
def loaded (mem : List (Addr × List Byte)) : State := machine 0x11 0x22 0x33 0x44 0x55 0x6677 mem

theorem test_reset_loads_the_vector :
    left (hostReset (loaded [(0xFFFC, [0x00, 0x02])])) =
      some (machine 0x00 0x00 0x00 0xFD 0x24 0x0200 [(0xFFFC, [0x00, 0x02])]) := by decide

theorem test_step_before_reset_is_refused :
    (match step { State.reset with resetDone := false } with
      | .refused r => r == .beforeReset | .next _ => false | .fault _ => false) = true := by decide

theorem test_load_of_no_byte_fails : left (hostLoad 0x1000 [] State.reset) = some (false, State.reset) := by decide

theorem test_load_drops_bytes_past_the_end :
    (match hostLoad 0xFFFE [0x01, 0x02, 0x03, 0x04] State.reset with
      | .next (ok, s) => ok && s.bus.peek 0xFFFE == 0x01 && s.bus.peek 0xFFFF == 0x02 && s.bus.peek 0x0000 == 0x00
      | .fault _ => false
      | .refused _ => false) = true := by decide

/-- Two steps of two cycles for a budget of three. -/
theorem test_execute_overshoots :
    left (hostExecute 3 (machine 0 0 0 0xFD 0x24 0x0200 [(0x0200, [0xA9, 0x01, 0xA9, 0x02, 0xA9, 0x03])])) =
      some (4, machine 2 0 0 0xFD 0x24 0x0204 [(0x0200, [0xA9, 0x01, 0xA9, 0x02, 0xA9, 0x03])]) := by decide

theorem test_run_until_takes_no_step_when_there : left (hostRunUntil 9 0x0000 State.reset) = some (true, State.reset) := by
  decide

/-- `LDA #$69` as the first instruction after reset (95_test_vectors S-A). -/
theorem test_step_runs_a_fetch_word_after_reset :
    (match step (State.reset.withFetchWord 16 0x69A9) with
      | .next t => t.a == 0x69 && t.pc == 0x0002 && t.p == 0x24
      | .fault _ => false
      | .refused _ => false) = true := by decide

/-- A fetch word is placed where no memory serves the address, too. -/
theorem test_fetch_word_on_an_empty_bus :
    (match step (State.withFetchWord { State.reset with bus := [] } 24 0x1234AD) with
      | .next t => t.a == 0x00 && t.pc == 0x0003
      | .fault _ => false
      | .refused _ => false) = true := by decide

/-- `LDA $10FF,X` with X = 1 costs one cycle more than `LDA $1000,X`; a store pays none (95_test_vectors S-P5). -/
theorem test_page_cross_cycles :
    stepCycles (machine 0 1 0 0xFD 0x24 0x0200 [(0x0200, [0xBD, 0xFF, 0x10])]) = 5 ∧
    stepCycles (machine 0 1 0 0xFD 0x24 0x0200 [(0x0200, [0xBD, 0x00, 0x10])]) = 4 ∧
    stepCycles (machine 0 1 0 0xFD 0x24 0x0200 [(0x0200, [0x9D, 0xFF, 0x10])]) = 5 := by decide

/-! ## Assembler lines (30_encoding R83, R84; the lines of 95_test_vectors Part 4 and 45_control_flow R215) -/

theorem test_listing_lines :
    Instr.listing (.ldaImm 0x00) 0x0202 = "LDA #$00" ∧ Instr.listing .aslAcc 0x0201 = "ASL A" ∧
    Instr.listing (.ldaIndy 0x40) 0x0202 = "LDA ($40),Y" ∧ Instr.listing (.ldaIndx 0xFE) 0x0202 = "LDA ($FE,X)" ∧
    Instr.listing (.jmpInd 0x10FF) 0x0203 = "JMP ($10FF)" ∧ Instr.listing (.bcc 0x8E) 0x0302 = "BCC $0290" ∧
    Instr.listing .clc 0x0201 = "CLC" ∧ Instr.listing (.unrecognised 0x02) 0x0201 = ".byte $02" := by decide

theorem test_branch_offset_ends :
    branchOffset 0x0300 0x0290 = some 0x8E ∧ branchOffset 0x0300 0x0282 = some 0x80 ∧ branchOffset 0x0300 0x0281 = none ∧
    branchOffset 0x0300 0x0381 = some 0x7F ∧ branchOffset 0x0300 0x0382 = none := by decide

/-! ## Witnesses: the hypotheses of each statement are met, and its clauses at their boundaries -/

/-- The machine the witnesses use: reset, on the default platform, with `LDA #$69` at PC. -/
def ready : State := machine 0 0 0 0xFD 0x24 0x0200 [(0x0200, [0xA9, 0x69])]

/-- A configuration that fails the check of 20_memory R45. -/
def badBus : Bus := [{ first := 0x0000, last := 0x0001, device := .ram 1 [] }]

theorem witness_DecodeInvertsEncode : Instr.wf (.ldaAbsx 0xFFFF) = true ∧ Instr.wf (.unrecognised 0xFF) = true := by
  decide

theorem witness_EncodeInvertsDecode :
    decode [0xBD, 0xFF, 0x10, 0x00] = .ok (.ldaAbsx 0x10FF, [0x00]) ∧ decode [0xFF] = .ok (.unrecognised 0xFF, []) :=
  ⟨rfl, rfl⟩

theorem witness_UnrecognisedBytesAreTheListedOnes :
    (0x02 : Byte) ∈ unrecognisedOpcodes ∧ (0xFF : Byte) ∈ unrecognisedOpcodes ∧ (0x00 : Byte) ∉ unrecognisedOpcodes ∧
    (0xFE : Byte) ∉ unrecognisedOpcodes := by decide

theorem witness_StepRunsTheDecodedInstruction : ready.resetDone = true ∧ ready.bus.fits = true := by decide

theorem witness_StepOnMemoryAdvancesPastTheInstruction :
    ready.resetDone = true ∧ ready.bus.fits = true ∧
    decode [ready.bus.peek ready.pc, ready.bus.peek (ready.pc + 1), ready.bus.peek (ready.pc + 2)] =
      .ok (.ldaImm 0x69, [0x00]) ∧
    ∀ k < (encode (.ldaImm 0x69)).length, ready.bus.plainAt (ready.pc + BitVec.ofNat 16 k) = true :=
  ⟨rfl, by decide, rfl, by decide⟩

theorem witness_StepRunsThePlacedInstruction :
    State.reset.bus.fits = true ∧ State.reset.bus.wf = true ∧ decodeTableWord 16 0x69A9 = some (.ldaImm 0x69) := by decide

theorem witness_RefusedBeforeResetAndOnBadConfiguration :
    ({ ready with resetDone := false } : State).resetDone = false ∧ ({ ready with bus := badBus } : State).bus.fits = false ∧
    ({ ready with bus := badBus } : State).resetDone = true := by decide

theorem witness_StepIsTotal : ready.resetDone = true ∧ ready.bus.fits = true := by decide

/-- For StepKeepsTheInvariant, StepKeepsTheConfiguration and StepKeepsWriteIgnoringMemory. -/
theorem witness_StepKeepsTheInvariant : ready.inv = true ∧ ∃ t, step ready = .next t := ⟨by decide, _, rfl⟩

theorem witness_BreakAndUnusedAreUnobservable :
    agreeOn 0xCF ready { ready with p := 0x14 } ∧ ∃ t, step ready = .next t := ⟨by unfold agreeOn; decide, _, rfl⟩

theorem witness_InterruptDisableAndDecimalDecideNothing :
    Instr.mnemonic (.adcImm 1) ≠ .PHP ∧ Instr.mnemonic (.adcImm 1) ≠ .BRK ∧ agreeOn 0xF3 ready { ready with p := 0x28 } ∧
    ∃ t, exec (.adcImm 1) ready = .next t := ⟨by decide, by decide, by unfold agreeOn; decide, _, rfl⟩

/-- Each register is changed by some instruction. -/
theorem witness_RegistersAreWrittenOnlyByTheListedInstructions :
    (∃ t, exec (.ldaImm 1) ready = .next t ∧ t.a ≠ ready.a) ∧ (∃ t, exec .inx ready = .next t ∧ t.x ≠ ready.x) ∧
    (∃ t, exec .dey ready = .next t ∧ t.y ≠ ready.y) ∧ (∃ t, exec .pha ready = .next t ∧ t.sp ≠ ready.sp) ∧
    ∃ t, exec (.bne 0x80) ready = .next t ∧ t.pc ≠ ready.pc :=
  ⟨⟨_, rfl, by decide⟩, ⟨_, rfl, by decide⟩, ⟨_, rfl, by decide⟩, ⟨_, rfl, by decide⟩, ⟨_, rfl, by decide⟩⟩

/-- Each flag is changed by some instruction. -/
theorem witness_FlagsAreWrittenOnlyByTheListedInstructions :
    (∃ t, exec .sec ready = .next t ∧ t.flag .carry ≠ ready.flag .carry) ∧
    (∃ t, exec .cli ready = .next t ∧ t.flag .interruptDisable ≠ ready.flag .interruptDisable) ∧
    (∃ t, exec .sed ready = .next t ∧ t.flag .decimal ≠ ready.flag .decimal) ∧
    (∃ t, exec .brk ready = .next t ∧ t.flag .brk ≠ ready.flag .brk) ∧
    (∃ t, exec .rti ready = .next t ∧ t.flag .unused ≠ ready.flag .unused) ∧
    (∃ t, exec (.adcImm 0x7F) { ready with a := 1 } = .next t ∧ t.flag .overflow ≠ ready.flag .overflow) ∧
    (∃ t, exec (.ldaImm 0) ready = .next t ∧ t.flag .zero ≠ ready.flag .zero) ∧
    ∃ t, exec (.ldaImm 0x80) ready = .next t ∧ t.flag .negative ≠ ready.flag .negative :=
  ⟨⟨_, rfl, by decide⟩, ⟨_, rfl, by decide⟩, ⟨_, rfl, by decide⟩, ⟨_, rfl, by decide⟩, ⟨_, rfl, by decide⟩,
    ⟨_, rfl, by decide⟩, ⟨_, rfl, by decide⟩, ⟨_, rfl, by decide⟩⟩

/-- The statement is not about an unchanged memory: a push changes the byte it stores to, and only that one. -/
theorem witness_OnlyStoredBytesOfMemoryChange :
    ∃ t, exec .pha { ready with a := 0x55 } = .next t ∧ storedAddrs .pha ready = [0x01FD] ∧ t.bus.peek 0x01FD = 0x55 ∧
      ready.bus.plainAt 0x01FC = true ∧ (0x01FC : Addr) ∉ storedAddrs .pha ready := ⟨_, rfl, by decide⟩

/-- One store for each register, at the ends of the address space. -/
theorem witness_StoredRegisterIsReadBack :
    ready.inv = true ∧ Instr.operand (.staAbs 0xFFFF) = .memory (.abs 0xFFFF) ∧ Instr.mnemonic (.staAbs 0xFFFF) = .STA ∧
    ready.bus.ramAt (effectiveAddr (.abs 0xFFFF) ready).1 = true ∧ Instr.mnemonic (.stxZp 0x00) = .STX ∧
    ready.bus.ramAt (effectiveAddr (.zp 0x00) ready).1 = true ∧ Instr.mnemonic (.styZpx 0xFF) = .STY ∧
    ready.bus.ramAt (effectiveAddr (.zpx 0xFF) ready).1 = true := by decide

/-- A hit at the first and at the last address of the second binding that no earlier binding contains, and a miss. -/
theorem witness_BusReadTakesTheFirstMatch :
    (∀ b ∈ overlapBus.take 1, ¬ (b.first.toNat ≤ (0x1100 : Addr).toNat ∧ (0x1100 : Addr).toNat ≤ b.last.toNat)) ∧
    (∀ b ∈ overlapBus.take 1, ¬ (b.first.toNat ≤ (0x11FF : Addr).toNat ∧ (0x11FF : Addr).toNat ≤ b.last.toNat)) ∧
    (∀ b ∈ overlapBus, ¬ (b.first.toNat ≤ (0x1200 : Addr).toNat ∧ (0x1200 : Addr).toNat ≤ b.last.toNat)) := by decide

/-- The same addresses, for a write. -/
theorem witness_BusWriteTakesTheFirstMatch :
    overlapBus.take 1 ++ overlapBus.drop 1 = overlapBus ∧ (overlapBus.write 0x1100 0x01).peek 0x1100 = 0x01 ∧
    overlapBus.write 0x1200 0x01 = overlapBus := by decide

/-- For the statements about every form of a mnemonic: some instruction has it. -/
theorem witness_mnemonics :
    Instr.mnemonic (.adcIndy 0xFF) = .ADC ∧ Instr.mnemonic (.sbcIndx 0xFF) = .SBC ∧ Instr.mnemonic (.cmpAbsy 0) = .CMP ∧
    Instr.mnemonic (.cpxZp 0) = .CPX ∧ Instr.mnemonic (.cpyAbs 0) = .CPY ∧ Instr.mnemonic (.incAbsx 0) = .INC ∧
    Instr.mnemonic (.decZpx 0) = .DEC ∧ Instr.mnemonic (.andImm 0) = .AND ∧ Instr.mnemonic (.oraZp 0) = .ORA ∧
    Instr.mnemonic (.eorAbs 0) = .EOR ∧ Instr.mnemonic (.bitZp 0) = .BIT ∧ Instr.mnemonic .aslAcc = .ASL ∧
    Instr.mnemonic (.lsrZp 0) = .LSR ∧ Instr.mnemonic (.rolZpx 0) = .ROL ∧ Instr.mnemonic (.rorAbsx 0) = .ROR ∧
    Instr.mnemonic (.ldaImm 0) = .LDA ∧ Instr.mnemonic (.ldxZpy 0) = .LDX ∧ Instr.mnemonic (.ldyAbsx 0) = .LDY ∧
    Instr.mnemonic (.staIndy 0) = .STA ∧ Instr.mnemonic (.stxZpy 0) = .STX ∧ Instr.mnemonic (.styZpx 0) = .STY := by
  decide

/-- Overflow set and clear, for both instructions, at the ends of the signed range. -/
theorem witness_OverflowIsSignedOverflow :
    operandByte (Instr.operand (.adcImm 0x7F)) ready = some (0x7F, ready.bus) ∧ Instr.mnemonic (.adcImm 0x7F) = .ADC ∧
    (∃ t, exec (.adcImm 0x7F) { ready with a := 0x01 } = .next t ∧ t.flag .overflow = true) ∧
    (∃ t, exec (.adcImm 0x7F) { ready with a := 0x00 } = .next t ∧ t.flag .overflow = false) ∧
    (∃ t, exec (.sbcImm 0x01) { ready with a := 0x80, p := 0x25 } = .next t ∧ t.flag .overflow = true) ∧
    ∃ t, exec (.sbcImm 0x00) { ready with a := 0x80, p := 0x25 } = .next t ∧ t.flag .overflow = false :=
  ⟨rfl, by decide, ⟨_, rfl, by decide⟩, ⟨_, rfl, by decide⟩, ⟨_, rfl, by decide⟩, ⟨_, rfl, by decide⟩⟩

/-- Both sides of a branch, at the ends of the offset range. -/
theorem witness_BranchesTestOneFlag :
    ready.flag .zero = false ∧ ready.flag .carry ≠ true ∧
    (∃ t, exec (.bne 0x80) ready = .next t ∧ t.pc = 0x0180) ∧ (∃ t, exec (.bne 0x7F) ready = .next t ∧ t.pc = 0x027F) ∧
    ∃ t, exec (.bcs 0x7F) ready = .next t ∧ t.pc = 0x0200 :=
  ⟨by decide, by decide, ⟨_, rfl, by decide⟩, ⟨_, rfl, by decide⟩, ⟨_, rfl, by decide⟩⟩

/-- A label at each end of the range, one past each end, and every branch in a state that meets its condition. -/
theorem witness_BranchOffsetReachesTheLabel :
    branchOffset 0x01FE 0x0180 = some 0x80 ∧ branchOffset 0x01FE 0x027F = some 0x7F ∧ ready.pc = 0x01FE + 2 ∧
    branchOffset 0x01FE 0x017F = none ∧ branchOffset 0x01FE 0x0280 = none ∧
    (∀ i ∈ [Instr.bne 0x80, .bcc 0x7F, .bvc 0x80, .bpl 0x7F], branchCondition i.mnemonic ready = true) ∧
    (∀ i ∈ [Instr.beq 0x80, .bcs 0x7F, .bvs 0x80, .bmi 0x7F],
      branchCondition i.mnemonic { ready with p := 0xE7 } = true) ∧
    Instr.operand (.bne 0x80) = .relative 0x80 ∧ Instr.operand (.bmi 0x7F) = .relative 0x7F := by decide

/-- The pointer's low byte 0xFF with the toggle on, off, and 0xFE. -/
theorem witness_JmpLoadsThePc :
    ready.config.jmpBug = true ∧ (0x10FF : Addr).toNat % 256 = 255 ∧
    ¬ (({ ready with config := { Config.atReset with jmpBug := false } } : State).config.jmpBug = true) ∧
    ¬ ((0x10FE : Addr).toNat % 256 = 255) ∧ (indirectTarget 0x10FF ready).1 = 0x0000 := by decide

/-- SP in the middle of the page, and SP = 0x00, where the second slot wraps. -/
theorem witness_RtsReturnsFromJsr :
    ready.inv = true ∧ ready.bus.ramAt (stackAddr ready.sp) = true ∧ ready.bus.ramAt (stackAddr (ready.sp - 1)) = true ∧
    ready.bus.ramAt (stackAddr (0x00 - 1)) = true := by decide

/-- For RtiReturnsFromBrk. -/
theorem witness_RtiReturnsFromBrk :
    ready.inv = true ∧ ready.bus.ramAt (stackAddr ready.sp) = true ∧ ready.bus.ramAt (stackAddr (ready.sp - 1)) = true ∧
    ready.bus.ramAt (stackAddr (ready.sp - 2)) = true ∧ ready.bus.plainAt 0xFFFE = true ∧
    ready.bus.plainAt 0xFFFF = true := by decide

theorem witness_StackNeverLeavesPageOne :
    ready.bus.plainAt 0x00FF = true ∧ ¬ (0x100 ≤ (0x00FF : Addr).toNat ∧ (0x00FF : Addr).toNat ≤ 0x1FF) ∧
    ready.bus.plainAt 0x0200 = true ∧ ¬ (0x100 ≤ (0x0200 : Addr).toNat ∧ (0x0200 : Addr).toNat ≤ 0x1FF) ∧
    (List.replicate 256 (0x55 : Byte)).length = 256 :=
  ⟨by decide, by decide, by decide, by decide, List.length_replicate⟩

/-- For ResetSetsTheRegisters and ResetLeavesTheStatedValues. -/
theorem witness_ResetLeavesTheStatedValues :
    ready.bus.fits = true ∧ ready.bus.plainAt 0xFFFC = true ∧ ready.bus.plainAt 0xFFFD = true ∧
    (Flag.carry ≠ .unused ∧ Flag.carry ≠ .interruptDisable) := by decide

theorem witness_ResetStateIsAResetOfTheDefaultPlatform :
    State.reset.bus = State.defaultBus ∧ State.reset.config = Config.atReset := ⟨rfl, rfl⟩

/-- The first byte of a load and the last one that is written, the addresses on both sides, and a write-ignoring and an
unmapped one. -/
theorem witness_LoadWritesConsecutiveBytes :
    ready.bus.fits = true ∧ ready.bus.wf = true ∧ ready.bus.ramAt 0xFFFE = true ∧
    ([0x01, 0x02, 0x03] : List Byte)[(0xFFFE : Addr).toNat - (0xFFFE : Addr).toNat]? = some 0x01 ∧
    ([0x01, 0x02, 0x03] : List Byte)[(0xFFFF : Addr).toNat - (0xFFFE : Addr).toNat]? = some 0x02 ∧
    ready.bus.plainAt 0xFFFD = true ∧ (0xFFFD : Addr).toNat < (0xFFFE : Addr).toNat ∧
    ready.bus.plainAt 0x1003 = true ∧
    (0x1000 : Addr).toNat + ([0x01, 0x02, 0x03] : List Byte).length ≤ (0x1003 : Addr).toNat ∧
    overlapBus.plainAt 0x8005 = true ∧ overlapBus.ramAt 0x8005 = false ∧
    overlapBus.plainAt 0x9000 = true ∧ overlapBus.ramAt 0x9000 = false := by decide

/-- R306: bytes loaded over the end of RAM, the unmapped gap and write-ignoring memory. -/
theorem test_load_leaves_write_ignoring_memory :
    (loadBytes 0x8004 [0x66, 0x67] overlapBus).peek 0x8005 = 0x44 ∧
    (loadBytes 0x11FF [0x66, 0x67] overlapBus).peek 0x11FF = 0x66 ∧
    (loadBytes 0x11FF [0x66, 0x67] overlapBus).peek 0x1200 = 0x00 := by decide

/-- For ExecuteSpendsItsBudget and RunUntilStopsAtTheFirstArrival: with budget 3 the load's 2 cycles leave one, and the
break's 7 overshoot by 6, the most there can be. -/
theorem witness_ExecuteSpendsItsBudget :
    ready.inv = true ∧ (0 : Nat) = 0 ∧ ready.pc ≠ 0x0202 ∧ ready.pc = 0x0200 ∧
    runCycles 1 ready = 2 ∧ runCycles 1 ready < 3 ∧ runCycles 2 ready = 9 := by decide

/-- Each kind of penalty: a read that crosses and one that does not, a store, a branch taken and not taken. -/
theorem witness_CyclePenalties :
    Instr.operand (.ldaAbsx 0x10FF) = .memory (.absx 0x10FF) ∧
    (Instr.mnemonic (.ldaAbsx 0x10FF)).accessClass = .read ∧ MemOperand.mode (.absx 0x10FF) ∈ [.absx, .absy, .indy] ∧
    (Instr.mnemonic (.staAbsx 0x10FF)).accessClass ∈ [AccessClass.write, .modify, .jump] ∧
    MemOperand.mode (.zpx 0xFF) ∉ [.absx, .absy, .indy] ∧ Instr.operand (.beq 0xFE) = .relative 0xFE ∧
    branchCondition .BEQ ready = false ∧ branchCondition .BNE ready = true := by decide

end Sys2Proof.Tests
end

/-!
The step and the fetch (00_scope R12, R15): what a successful decode says of the bytes it was given, the fetch of an
instruction as a row of fetched bytes and as reads of memory, and the placing of a fetch word.
-/

namespace Sys2Proof

/-- Whatever decodes is well formed, is encoded as the bytes it was decoded from, and has the length its opcode byte
selects (30_encoding R62). -/
theorem decode_cons_ok {op : Byte} {bytes rest : List Byte} {i : Instr} (h : decode (op :: bytes) = .ok (i, rest)) :
    i.wf = true ∧ encode i ++ rest = op :: bytes ∧ (encode i).length = instrLength op := by
  have means := opcodeMeans_formatOf op
  cases hf : formatOf op with
  | complete j =>
    rw [hf] at means
    obtain ⟨henc, hwf, -⟩ := means
    simp only [decode, hf, Except.ok.injEq, Prod.mk.injEq] at h
    obtain ⟨rfl, rfl⟩ := h
    exact ⟨hwf, by rw [henc]; rfl, by simp [henc, instrLength, hf]⟩
  | byteOperand f =>
    rw [hf] at means
    match bytes with
    | [] => simp [decode, hf] at h
    | b :: _ =>
      obtain ⟨henc, hwf, -⟩ := means.2 b
      simp only [decode, hf, Except.ok.injEq, Prod.mk.injEq] at h
      obtain ⟨rfl, rfl⟩ := h
      exact ⟨hwf, by rw [henc]; rfl, by simp [henc, instrLength, hf]⟩
  | wordOperand f =>
    rw [hf] at means
    match bytes with
    | [] => simp [decode, hf] at h
    | [_] => simp [decode, hf] at h
    | lo :: hi :: _ =>
      obtain ⟨henc, hwf, -⟩ := means.2 (word16 hi lo)
      simp only [decode, hf, Except.ok.injEq, Prod.mk.injEq] at h
      obtain ⟨rfl, rfl⟩ := h
      exact ⟨hwf, by simp [henc], by simp [henc, instrLength, hf]⟩

theorem wf_of_decode {bytes rest : List Byte} {i : Instr} (h : decode bytes = .ok (i, rest)) : i.wf = true := by
  cases bytes with
  | nil => cases h
  | cons op bytes => exact (decode_cons_ok h).1

theorem decodeTableWord_some {nbits w : Nat} {i : Instr} (h : decodeTableWord nbits w = some i) :
    ∃ rest, decode [byteOf (w % 2 ^ nbits) 0, byteOf (w % 2 ^ nbits) 1, byteOf (w % 2 ^ nbits) 2] = .ok (i, rest) := by
  unfold decodeTableWord at h
  split at h
  · next j rest hd => exact ⟨rest, by rw [hd, Option.some.inj h]⟩
  · cases h

end Sys2Proof

namespace Sys2Proof.Machine

/-- Fetching an instruction is fetching as many bytes as its opcode byte selects and decoding them. -/
theorem fetchBytes_instrLength (s : State) :
    decode (fetchBytes (instrLength (s.bus.peek s.pc)) s).1 = .ok ((fetchInstr s).1, []) ∧
      (fetchBytes (instrLength (s.bus.peek s.pc)) s).2 = (fetchInstr s).2 := by
  cases hf : formatOf (s.bus.peek s.pc) with
  | complete i => simp [instrLength, hf, fetchBytes, fetchInstr, fetchOperand, decode]
  | byteOperand f => simp [instrLength, hf, fetchBytes, fetchInstr, fetchOperand, decode]
  | wordOperand f => simp [instrLength, hf, fetchBytes, fetchInstr, fetchOperand, decode]

/-- `fetch8_plain` at the `k`-th byte from PC on. -/
theorem fetch8_plain_offset {s : State} (k : Nat) (h : s.bus.plainAt (s.pc + BitVec.ofNat 16 k) = true) :
    fetch8 { s with pc := s.pc + BitVec.ofNat 16 k } =
      (s.bus.peek (s.pc + BitVec.ofNat 16 k), { s with pc := s.pc + BitVec.ofNat 16 (k + 1) }) := by
  rw [fetch8_plain h, BitVec.ofNat_add, ← BitVec.add_assoc]
  rfl

/-- Where the bytes of an instruction are memory, fetching it only advances PC past them. -/
theorem fetchInstr_plain {s : State} {i : Instr} {rest : List Byte}
    (hd : decode [s.bus.peek s.pc, s.bus.peek (s.pc + 1), s.bus.peek (s.pc + 2)] = .ok (i, rest))
    (hp : ∀ k < (encode i).length, s.bus.plainAt (s.pc + BitVec.ofNat 16 k) = true) :
    fetchInstr s = (i, { s with pc := s.pc + BitVec.ofNat 16 (encode i).length }) := by
  obtain ⟨-, -, hlen⟩ := decode_cons_ok hd
  rw [hlen] at hp ⊢
  have f0 : fetch8 s = (s.bus.peek s.pc, { s with pc := s.pc + 1 }) :=
    fetch8_plain (by simpa using hp 0 (instrLength_pos _))
  cases hf : formatOf (s.bus.peek s.pc) with
  | complete j =>
    simp only [decode, hf, Except.ok.injEq, Prod.mk.injEq] at hd
    simp only [fetchInstr, fetchOperand, f0, hf, instrLength, hd.1]
    rfl
  | byteOperand f =>
    simp only [instrLength, hf] at hp
    have f1 : fetch8 { s with pc := s.pc + 1 } = (s.bus.peek (s.pc + 1), { s with pc := s.pc + 2 }) :=
      fetch8_plain_offset 1 (hp 1 (by omega))
    simp only [decode, hf, Except.ok.injEq, Prod.mk.injEq] at hd
    simp only [fetchInstr, fetchOperand, f0, f1, hf, instrLength, hd.1]
    rfl
  | wordOperand f =>
    simp only [instrLength, hf] at hp
    have f1 : fetch8 { s with pc := s.pc + 1 } = (s.bus.peek (s.pc + 1), { s with pc := s.pc + 2 }) :=
      fetch8_plain_offset 1 (hp 1 (by omega))
    have f2 : fetch8 { s with pc := s.pc + 2 } = (s.bus.peek (s.pc + 2), { s with pc := s.pc + 3 }) :=
      fetch8_plain_offset 2 (hp 2 (by omega))
    simp only [decode, hf, Except.ok.injEq, Prod.mk.injEq] at hd
    simp only [fetchInstr, fetchOperand, f0, f1, f2, hf, instrLength, hd.1]
    rfl

/-- On an accepted bus in canonical form, `withFetchWord` leaves an accepted bus on which the three bytes of the word
stand in memory from PC on. -/
theorem withFetchWord_placed {s : State} (nbits w : Nat) (hf : s.bus.fits = true) (hw : s.bus.wf = true) :
    (s.withFetchWord nbits w).bus.fits = true ∧
      ∀ k < 3, (s.withFetchWord nbits w).bus.peek (s.pc + BitVec.ofNat 16 k) = byteOf (w % 2 ^ nbits) k ∧
        (s.withFetchWord nbits w).bus.plainAt (s.pc + BitVec.ofNat 16 k) = true := by
  have p0 := Bus.placed_place s.pc (byteOf (w % 2 ^ nbits) 0) hf hw
  have p1 := Bus.placed_place (s.pc + 1) (byteOf (w % 2 ^ nbits) 1) p0.fits p0.wf
  have p2 := Bus.placed_place (s.pc + 2) (byteOf (w % 2 ^ nbits) 2) p1.fits p1.wf
  have n01 : s.pc ≠ s.pc + 1 := by bv_omega
  have n02 : s.pc ≠ s.pc + 2 := by bv_omega
  have n12 : s.pc + 1 ≠ s.pc + 2 := by bv_omega
  refine ⟨p2.fits, fun k hk => ?_⟩
  match k, hk with
  | 0, _ =>
    rw [BitVec.add_zero]
    exact ⟨(p2.peek_other _ n02).trans ((p1.peek_other _ n01).trans p0.peek),
      (p2.plain_other _ n02).trans ((p1.plain_other _ n01).trans p0.plain)⟩
  | 1, _ => exact ⟨(p2.peek_other _ n12).trans p1.peek, (p2.plain_other _ n12).trans p1.plain⟩
  | 2, _ => exact ⟨p2.peek, p2.plain⟩

end Sys2Proof.Machine

namespace Sys2Proof.Claims

open Sys2Proof Sys2Proof.Machine

/-- Settles O7: the instruction fetched from memory is the decoded one, and the fetch only moves PC. -/
theorem stepOnMemoryAdvancesPastTheInstruction : Obligations.StepOnMemoryAdvancesPastTheInstruction := by
  intro s i rest hr hf hd hp
  rw [step_ready hr hf, fetchInstr_plain hd hp]

/-- Settles O8: the placed bytes are memory, so the step is that of O7. -/
theorem stepRunsThePlacedInstruction : Obligations.StepRunsThePlacedInstruction := by
  intro s nbits w i hf hw h
  obtain ⟨rest, hd⟩ := decodeTableWord_some h
  obtain ⟨hfits, hplaced⟩ := withFetchWord_placed nbits w hf hw
  obtain ⟨peek0, -⟩ := hplaced 0 (by decide)
  obtain ⟨peek1, -⟩ := hplaced 1 (by decide)
  obtain ⟨peek2, -⟩ := hplaced 2 (by decide)
  rw [BitVec.add_zero] at peek0
  rw [← peek0, ← peek1, ← peek2] at hd
  exact stepOnMemoryAdvancesPastTheInstruction (s.withFetchWord nbits w) i rest rfl hfits hd
    fun k hk => (hplaced k (hk.trans_le (encode_length_le i))).2

/-- Settles O6: the instruction is the one fetched, which the fetched bytes decode to. -/
theorem stepRunsTheDecodedInstruction : Obligations.StepRunsTheDecodedInstruction := by
  intro s hr hf
  obtain ⟨hd, hs⟩ := fetchBytes_instrLength s
  exact ⟨(fetchInstr s).1, wf_of_decode hd, hd, by rw [hs, step_ready hr hf]⟩

end Sys2Proof.Claims

/-!
What each instruction does, said once per shared operation: `Meaning` names the operation an instruction's mnemonic and
operand give it. What an instruction writes and what it reads of P follow from it by cases on some twenty operations.
-/

namespace Sys2Proof.Machine

open Sys2Proof Sys2Proof.Claims

/-! ### Status operations: what they write of P, and that they read Carry only -/

/-- A value that depends on a status byte through Carry only. -/
def CarryOnly {α : Type} (r : Byte → α) : Prop := ∀ p q, getFlag .carry q = getFlag .carry p → r q = r p

/-- A status computation that writes the listed flags, from Carry alone, and keeps the others. -/
structure Writes (written : List Flag) (h : Byte → Byte) : Prop where
  kept : ∀ p, flagsKeptBut written p (h p)
  determined : ∀ f ∈ written, CarryOnly fun p => getFlag f (h p)

/-- A result and a status, both from an old status: the result depends on Carry only. -/
structure StatusOp (written : List Flag) (g : Byte → Byte × Byte) : Prop where
  value : CarryOnly fun p => (g p).1
  writes : Writes written fun p => (g p).2

theorem CarryOnly.const {α : Type} (v : α) : CarryOnly fun _ => v := fun _ _ _ => rfl

theorem CarryOnly.comp {α β : Type} {r : Byte → α} (k : α → β) (hr : CarryOnly r) : CarryOnly fun p => k (r p) :=
  fun p q h => congrArg k (hr p q h)

theorem carryNat_carryOnly : CarryOnly carryNat := fun _ _ h => congrArg Bool.toNat h

theorem Writes.id : Writes [] fun p => p := ⟨fun _ => flagsKeptBut_refl _ _, fun _ hf => nomatch hf⟩

theorem Writes.setFlag {written : List Flag} {h : Byte → Byte} {v : Byte → Bool} (f : Flag) (hv : CarryOnly v)
    (hh : Writes written h) : Writes (f :: written) fun p => setFlag f (v p) (h p) where
  kept p := flagsKeptBut_setFlag _ List.mem_cons_self fun g hg => hh.kept p g fun hc => hg (List.mem_cons_of_mem f hc)
  determined g hg p q hc := by
    simp only [getFlag_setFlag]
    split
    · exact hv p q hc
    · next hne => exact hh.determined g ((List.mem_cons.mp hg).resolve_left hne) p q hc

theorem Writes.setNZ {written : List Flag} {h r : Byte → Byte} (hr : CarryOnly r) (hh : Writes written h) :
    Writes (.negative :: .zero :: written) fun p => setNZ (r p) (h p) :=
  .setFlag .negative (hr.comp BitVec.msb) (.setFlag .zero (hr.comp (· == 0x00)) hh)

theorem writes_setFlag (f : Flag) (v : Bool) : Writes [f] (setFlag f v) := .setFlag f (.const v) .id

/-- `SetNZ` of a byte that does not depend on P (00_scope R13). -/
theorem writes_setNZ (v : Byte) : Writes [.negative, .zero] (setNZ v) := .setNZ (.const v) .id

theorem statusOp_setNZ (r : Byte) : StatusOp [.negative, .zero] fun p => (r, setNZ r p) :=
  ⟨.const r, writes_setNZ r⟩

/-- Status bytes that differ in flags the computation does not read give status bytes that differ in those at most. -/
theorem Writes.agree {written fs : List Flag} {h : Byte → Byte} (hh : Writes written h) (hfs : Flag.carry ∉ fs)
    {p q : Byte} (hpq : flagsKeptBut fs p q) : flagsKeptBut fs (h p) (h q) := by
  intro f hf
  by_cases hw : f ∈ written
  · exact hh.determined f hw p q (hpq .carry hfs)
  · rw [hh.kept q f hw, hh.kept p f hw, hpq f hf]

/-! ### The operation each mnemonic names -/

/-- The instructions that combine A with an operand byte. -/
inductive AccumulateOp : Mnemonic → (Byte → Byte → Byte → Byte × Byte) → Prop where
  | adc : AccumulateOp .ADC adcByte
  | sbc : AccumulateOp .SBC sbcByte
  | and : AccumulateOp .AND andByte
  | ora : AccumulateOp .ORA oraByte
  | eor : AccumulateOp .EOR eorByte

/-- The instructions that test an operand byte, and the register they test it with. -/
inductive TestOp : Mnemonic → (State → Byte) → (Byte → Byte → Byte → Byte) → Prop where
  | cmp : TestOp .CMP State.a compareByte
  | cpx : TestOp .CPX State.x compareByte
  | cpy : TestOp .CPY State.y compareByte
  | bit : TestOp .BIT State.a bitTestByte

/-- The shifts and rotates. -/
inductive ShiftOp : Mnemonic → (Byte → Byte → Byte × Byte) → Prop where
  | asl : ShiftOp .ASL aslByte
  | lsr : ShiftOp .LSR lsrByte
  | rol : ShiftOp .ROL rolByte
  | ror : ShiftOp .ROR rorByte

/-- The read-modify-write instructions. -/
inductive ModifyOp : Mnemonic → (Byte → Byte → Byte × Byte) → Prop where
  | inc : ModifyOp .INC incByte
  | dec : ModifyOp .DEC decByte
  | shift {m : Mnemonic} {f : Byte → Byte → Byte × Byte} (hf : ShiftOp m f) : ModifyOp m f

/-- The byte a register instruction writes to A. -/
inductive ToA : Mnemonic → (State → Byte) → Prop where
  | txa : ToA .TXA State.x
  | tya : ToA .TYA State.y

/-- The byte a register instruction writes to X. -/
inductive ToX : Mnemonic → (State → Byte) → Prop where
  | tax : ToX .TAX State.a
  | tsx : ToX .TSX State.sp
  | inx : ToX .INX fun s => s.x + 1
  | dex : ToX .DEX fun s => s.x - 1

/-- The byte a register instruction writes to Y. -/
inductive ToY : Mnemonic → (State → Byte) → Prop where
  | tay : ToY .TAY State.a
  | iny : ToY .INY fun s => s.y + 1
  | dey : ToY .DEY fun s => s.y - 1

/-- The register a store writes to memory. -/
inductive StoreOp : Mnemonic → (State → Byte) → Prop where
  | sta : StoreOp .STA State.a
  | stx : StoreOp .STX State.x
  | sty : StoreOp .STY State.y

/-- The flag set and clear instructions. -/
inductive FlagOp : Mnemonic → Flag → Bool → Prop where
  | clc : FlagOp .CLC .carry false
  | sec : FlagOp .SEC .carry true
  | cli : FlagOp .CLI .interruptDisable false
  | sei : FlagOp .SEI .interruptDisable true
  | cld : FlagOp .CLD .decimal false
  | sed : FlagOp .SED .decimal true
  | clv : FlagOp .CLV .overflow false

/-- The operand byte as a function of the state. -/
def Reads (o : Operand) (v : State → Byte × Bus) : Prop := ∀ s, operandByte o s = some (v s)

/-- What an instruction with this mnemonic and operand does to the state. -/
inductive Meaning : Mnemonic → Operand → (State → State) → Prop where
  | accumulate {m o f v} (hf : AccumulateOp m f) (hv : Reads o v) : Meaning m o fun s => accumulate f (v s) s
  | test {m o r f v} (hf : TestOp m r f) (hv : Reads o v) : Meaning m o fun s => test (f (r s)) (v s) s
  | modify {m f} (hf : ModifyOp m f) (w : MemOperand) : Meaning m (.memory w) (modifyByte f w)
  | modifyA {m f} (hf : ShiftOp m f) : Meaning m .accumulator (modifyA f)
  | loadA {o v} (hv : Reads o v) : Meaning .LDA o fun s => loadA (v s) s
  | loadX {o v} (hv : Reads o v) : Meaning .LDX o fun s => loadX (v s) s
  | loadY {o v} (hv : Reads o v) : Meaning .LDY o fun s => loadY (v s) s
  | store {m r} (hr : StoreOp m r) (w : MemOperand) : Meaning m (.memory w) fun s => storeByte w (r s) s
  | toA {m r} (hr : ToA m r) : Meaning m .implied fun s => setA (r s, setNZ (r s) s.p) s
  | toX {m r} (hr : ToX m r) : Meaning m .implied fun s => setX (r s, setNZ (r s) s.p) s
  | toY {m r} (hr : ToY m r) : Meaning m .implied fun s => setY (r s, setNZ (r s) s.p) s
  | txs : Meaning .TXS .implied fun s => { s with sp := s.x }
  | flag {m f v} (hf : FlagOp m f v) : Meaning m .implied (State.withFlag f v)
  | branch {m} (hm : m.accessClass = .branch) (off : Byte) :
      Meaning m (.relative off) fun s => branchIf (branchCondition m s) off s
  | jump (addr : Addr) : Meaning .JMP (.memory (.abs addr)) fun s => { s with pc := addr }
  | jumpIndirect (ptr : Addr) :
      Meaning .JMP (.indirect ptr) fun s => { s with pc := (indirectTarget ptr s).1, bus := (indirectTarget ptr s).2 }
  | call (addr : Addr) : Meaning .JSR (.memory (.abs addr)) fun s => { pushWord (s.pc - 1) s with pc := addr }
  | ret : Meaning .RTS .implied fun s => { (pullWord s).2 with pc := (pullWord s).1 + 1 }
  | pha : Meaning .PHA .implied fun s => push s.a s
  | php : Meaning .PHP .implied fun s => push (pushedStatus s.p) s
  | pla : Meaning .PLA .implied fun s => setA ((pull s).1, setNZ (pull s).1 s.p) (pull s).2
  | plp : Meaning .PLP .implied fun s => { (pull s).2 with p := statusFromPlp (pull s).1 }
  | brk : Meaning .BRK .implied takeBreak
  | rti : Meaning .RTI .implied returnFromBreak
  | none {m} (hm : m ∈ [.NOP, .unrecognised]) : Meaning m .implied fun s => s

/-- Every instruction answers a next state, which its meaning gives. -/
theorem exec_meaning (i : Instr) : ∃ F, Meaning i.mnemonic i.operand F ∧ ∀ s, exec i s = .next (F s) := by
  cases i with
  | adcImm | adcZp | adcZpx | adcAbs | adcAbsx | adcAbsy | adcIndx | adcIndy =>
    exact ⟨_, .accumulate .adc fun _ => rfl, fun _ => rfl⟩
  | sbcImm | sbcZp | sbcZpx | sbcAbs | sbcAbsx | sbcAbsy | sbcIndx | sbcIndy =>
    exact ⟨_, .accumulate .sbc fun _ => rfl, fun _ => rfl⟩
  | andImm | andZp | andZpx | andAbs | andAbsx | andAbsy | andIndx | andIndy =>
    exact ⟨_, .accumulate .and fun _ => rfl, fun _ => rfl⟩
  | oraImm | oraZp | oraZpx | oraAbs | oraAbsx | oraAbsy | oraIndx | oraIndy =>
    exact ⟨_, .accumulate .ora fun _ => rfl, fun _ => rfl⟩
  | eorImm | eorZp | eorZpx | eorAbs | eorAbsx | eorAbsy | eorIndx | eorIndy =>
    exact ⟨_, .accumulate .eor fun _ => rfl, fun _ => rfl⟩
  | cmpImm | cmpZp | cmpZpx | cmpAbs | cmpAbsx | cmpAbsy | cmpIndx | cmpIndy =>
    exact ⟨_, .test .cmp fun _ => rfl, fun _ => rfl⟩
  | cpxImm | cpxZp | cpxAbs => exact ⟨_, .test .cpx fun _ => rfl, fun _ => rfl⟩
  | cpyImm | cpyZp | cpyAbs => exact ⟨_, .test .cpy fun _ => rfl, fun _ => rfl⟩
  | bitZp | bitAbs => exact ⟨_, .test .bit fun _ => rfl, fun _ => rfl⟩
  | incZp | incZpx | incAbs | incAbsx => exact ⟨_, .modify .inc _, fun _ => rfl⟩
  | decZp | decZpx | decAbs | decAbsx => exact ⟨_, .modify .dec _, fun _ => rfl⟩
  | aslZp | aslZpx | aslAbs | aslAbsx => exact ⟨_, .modify (.shift .asl) _, fun _ => rfl⟩
  | lsrZp | lsrZpx | lsrAbs | lsrAbsx => exact ⟨_, .modify (.shift .lsr) _, fun _ => rfl⟩
  | rolZp | rolZpx | rolAbs | rolAbsx => exact ⟨_, .modify (.shift .rol) _, fun _ => rfl⟩
  | rorZp | rorZpx | rorAbs | rorAbsx => exact ⟨_, .modify (.shift .ror) _, fun _ => rfl⟩
  | aslAcc => exact ⟨_, .modifyA .asl, fun _ => rfl⟩
  | lsrAcc => exact ⟨_, .modifyA .lsr, fun _ => rfl⟩
  | rolAcc => exact ⟨_, .modifyA .rol, fun _ => rfl⟩
  | rorAcc => exact ⟨_, .modifyA .ror, fun _ => rfl⟩
  | ldaImm | ldaZp | ldaZpx | ldaAbs | ldaAbsx | ldaAbsy | ldaIndx | ldaIndy =>
    exact ⟨_, .loadA fun _ => rfl, fun _ => rfl⟩
  | ldxImm | ldxZp | ldxZpy | ldxAbs | ldxAbsy => exact ⟨_, .loadX fun _ => rfl, fun _ => rfl⟩
  | ldyImm | ldyZp | ldyZpx | ldyAbs | ldyAbsx => exact ⟨_, .loadY fun _ => rfl, fun _ => rfl⟩
  | staZp | staZpx | staAbs | staAbsx | staAbsy | staIndx | staIndy => exact ⟨_, .store .sta _, fun _ => rfl⟩
  | stxZp | stxZpy | stxAbs => exact ⟨_, .store .stx _, fun _ => rfl⟩
  | styZp | styZpx | styAbs => exact ⟨_, .store .sty _, fun _ => rfl⟩
  | txa => exact ⟨_, .toA .txa, fun _ => rfl⟩
  | tya => exact ⟨_, .toA .tya, fun _ => rfl⟩
  | tax => exact ⟨_, .toX .tax, fun _ => rfl⟩
  | tsx => exact ⟨_, .toX .tsx, fun _ => rfl⟩
  | inx => exact ⟨_, .toX .inx, fun _ => rfl⟩
  | dex => exact ⟨_, .toX .dex, fun _ => rfl⟩
  | tay => exact ⟨_, .toY .tay, fun _ => rfl⟩
  | iny => exact ⟨_, .toY .iny, fun _ => rfl⟩
  | dey => exact ⟨_, .toY .dey, fun _ => rfl⟩
  | txs => exact ⟨_, .txs, fun _ => rfl⟩
  | clc => exact ⟨_, .flag .clc, fun _ => rfl⟩
  | sec => exact ⟨_, .flag .sec, fun _ => rfl⟩
  | cli => exact ⟨_, .flag .cli, fun _ => rfl⟩
  | sei => exact ⟨_, .flag .sei, fun _ => rfl⟩
  | cld => exact ⟨_, .flag .cld, fun _ => rfl⟩
  | sed => exact ⟨_, .flag .sed, fun _ => rfl⟩
  | clv => exact ⟨_, .flag .clv, fun _ => rfl⟩
  | bpl | bmi | bvc | bvs | bcc | bcs | bne | beq => exact ⟨_, .branch rfl _, fun _ => rfl⟩
  | jmpAbs addr => exact ⟨_, .jump addr, fun _ => rfl⟩
  | jmpInd ptr => exact ⟨_, .jumpIndirect ptr, fun _ => rfl⟩
  | jsr addr => exact ⟨_, .call addr, fun _ => rfl⟩
  | rts => exact ⟨_, .ret, fun _ => rfl⟩
  | pha => exact ⟨_, .pha, fun _ => rfl⟩
  | php => exact ⟨_, .php, fun _ => rfl⟩
  | pla => exact ⟨_, .pla, fun _ => rfl⟩
  | plp => exact ⟨_, .plp, fun _ => rfl⟩
  | brk => exact ⟨_, .brk, fun _ => rfl⟩
  | rti => exact ⟨_, .rti, fun _ => rfl⟩
  | nop => exact ⟨_, .none (by decide), fun _ => rfl⟩
  | unrecognised => exact ⟨_, .none (m := .unrecognised) (by decide), fun _ => rfl⟩

/-- An instruction that answers a next state has a meaning, and the next state is what it gives. -/
theorem meaning_of_exec {i : Instr} {s t : State} (h : exec i s = .next t) :
    ∃ F, Meaning i.mnemonic i.operand F ∧ F s = t ∧ ∀ s', exec i s' = .next (F s') := by
  obtain ⟨F, hF, he⟩ := exec_meaning i
  exact ⟨F, hF, by simpa [he] using h, he⟩

end Sys2Proof.Machine

/-!
Which registers a meaning writes (10_state R20, R22).
-/

namespace Sys2Proof.Machine

open Sys2Proof Sys2Proof.Claims

/-! ### A branch and the trap return, field by field -/

@[simp] theorem branchIf_a (c : Bool) (off : Byte) (s : State) : (branchIf c off s).a = s.a := by rw [branchIf_eq]

@[simp] theorem branchIf_x (c : Bool) (off : Byte) (s : State) : (branchIf c off s).x = s.x := by rw [branchIf_eq]

@[simp] theorem branchIf_y (c : Bool) (off : Byte) (s : State) : (branchIf c off s).y = s.y := by rw [branchIf_eq]

@[simp] theorem branchIf_sp (c : Bool) (off : Byte) (s : State) : (branchIf c off s).sp = s.sp := by rw [branchIf_eq]

@[simp] theorem branchIf_p (c : Bool) (off : Byte) (s : State) : (branchIf c off s).p = s.p := by rw [branchIf_eq]

@[simp] theorem returnFromBreak_a (s : State) : (returnFromBreak s).a = s.a := rfl

@[simp] theorem returnFromBreak_x (s : State) : (returnFromBreak s).x = s.x := rfl

@[simp] theorem returnFromBreak_y (s : State) : (returnFromBreak s).y = s.y := rfl

section

variable {m : Mnemonic} {o : Operand} {F : State → State}

theorem Meaning.writes_a (h : Meaning m o F) (s : State) (hs : (F s).a ≠ s.a) :
    m ∈ [.ADC, .SBC, .AND, .ORA, .EOR, .LDA, .TXA, .TYA, .PLA] ∨
      (m ∈ [.ASL, .LSR, .ROL, .ROR] ∧ o.mode = .acc) := by
  cases h with
  | accumulate hf => exact .inl (by cases hf <;> decide)
  | modifyA hf => exact .inr ⟨by cases hf <;> decide, rfl⟩
  | toA hr => exact .inl (by cases hr <;> decide)
  | loadA | pla => exact .inl (by decide)
  | _ => simp at hs

theorem Meaning.writes_x (h : Meaning m o F) (s : State) (hs : (F s).x ≠ s.x) :
    m ∈ [.LDX, .TAX, .TSX, .INX, .DEX] := by
  cases h with
  | toX hr => cases hr <;> decide
  | loadX => decide
  | _ => simp at hs

theorem Meaning.writes_y (h : Meaning m o F) (s : State) (hs : (F s).y ≠ s.y) : m ∈ [.LDY, .TAY, .INY, .DEY] := by
  cases h with
  | toY hr => cases hr <;> decide
  | loadY => decide
  | _ => simp at hs

theorem Meaning.writes_sp (h : Meaning m o F) (s : State) (hs : (F s).sp ≠ s.sp) :
    m ∈ [.TXS, .PHA, .PHP, .PLA, .PLP, .JSR, .RTS, .BRK, .RTI] := by
  cases h with
  | txs | pha | php | pla | plp | call | ret | brk | rti => decide
  | _ => simp at hs

/-- A meaning starts with PC past the instruction (log 9). -/
theorem Meaning.writes_pc (h : Meaning m o F) (s : State) (hs : (F s).pc ≠ s.pc) :
    m.accessClass = .branch ∨ m ∈ [.JMP, .JSR, .RTS, .BRK, .RTI] := by
  cases h with
  | branch hm => exact .inl hm
  | jump | jumpIndirect | call | ret | brk | rti => exact .inr (by decide)
  | _ => simp at hs

end

end Sys2Proof.Machine

/-!
Which flags a meaning writes (10_state R24).
-/

namespace Sys2Proof.Machine

open Sys2Proof Sys2Proof.Claims

theorem mem_allFlags (f : Flag) :
    f ∈ [Flag.negative, .overflow, .unused, .brk, .decimal, .interruptDisable, .zero, .carry] := by
  cases f <;> decide

/-- The flags a mnemonic can write: the status table's "written by" column, read by instruction;
BRK writes Interrupt Disable where `brkSetsI` says so (D3). -/
def writtenFlags (brkSetsI : Bool) : Mnemonic → List Flag
  | .ADC | .SBC => [.negative, .zero, .overflow, .carry]
  | .CMP | .CPX | .CPY | .ASL | .LSR | .ROL | .ROR => [.negative, .zero, .carry]
  | .BIT => [.negative, .overflow, .zero]
  | .INC | .DEC | .INX | .INY | .DEX | .DEY | .AND | .ORA | .EOR | .LDA | .LDX | .LDY | .TAX | .TAY | .TXA | .TYA
  | .TSX | .PLA => [.negative, .zero]
  | .CLC | .SEC => [.carry]
  | .CLI | .SEI => [.interruptDisable]
  | .CLD | .SED => [.decimal]
  | .CLV => [.overflow]
  | .BRK => if brkSetsI then [.interruptDisable, .brk] else [.brk]
  | .PLP | .RTI => [.negative, .overflow, .unused, .brk, .decimal, .interruptDisable, .zero, .carry]
  | .STA | .STX | .STY | .TXS | .BPL | .BMI | .BVC | .BVS | .BCC | .BCS | .BNE | .BEQ | .JMP | .JSR | .RTS | .PHA | .PHP
  | .NOP | .unrecognised => []

section

variable {b : Bool}

theorem adcByte_statusOp (a v : Byte) : StatusOp [.negative, .zero, .overflow, .carry] (adcByte a v) := by
  have sum : CarryOnly fun p => a.toNat + v.toNat + carryNat p := carryNat_carryOnly.comp _
  have r : CarryOnly fun p => (adcByte a v p).1 := sum.comp (BitVec.ofNat 8)
  exact ⟨r, .setNZ r (.setFlag _ (r.comp fun r => (~~~(a ^^^ v) &&& (a ^^^ r) &&& 0x80) != 0x00)
    (.setFlag _ (sum.comp fun n => decide (n > 255)) .id))⟩

theorem sbcByte_statusOp (a v : Byte) : StatusOp [.negative, .zero, .overflow, .carry] (sbcByte a v) := by
  have diff : CarryOnly fun p => (a.toNat : Int) - (v.toNat : Int) - (1 - (carryNat p : Int)) :=
    carryNat_carryOnly.comp fun c : Nat => (a.toNat : Int) - (v.toNat : Int) - (1 - (c : Int))
  have r : CarryOnly fun p => (sbcByte a v p).1 := diff.comp (BitVec.ofInt 8)
  exact ⟨r, .setNZ r (.setFlag _ (r.comp fun r => ((a ^^^ v) &&& (a ^^^ r) &&& 0x80) != 0x00)
    (.setFlag _ (diff.comp fun d => decide (d ≥ 0)) .id))⟩

theorem compareByte_writes (r v : Byte) : Writes [.negative, .zero, .carry] (compareByte r v) :=
  .setFlag _ (.const _) (.setFlag _ (.const _) (.setFlag _ (.const _) .id))

theorem bitTestByte_writes (a v : Byte) : Writes [.negative, .overflow, .zero] (bitTestByte a v) :=
  .setFlag _ (.const _) (.setFlag _ (.const _) (.setFlag _ (.const _) .id))

/-- A shift: the bit shifted out goes to Carry, the result depends on the old Carry at most. -/
theorem statusOp_shift {r : Byte → Byte} (out : Bool) (hr : CarryOnly r) :
    StatusOp [.negative, .zero, .carry] fun p => (r p, setNZ (r p) (setFlag .carry out p)) :=
  ⟨hr, .setNZ hr (.setFlag _ (.const out) .id)⟩

theorem AccumulateOp.statusOp {m f} (h : AccumulateOp m f) (a v : Byte) : StatusOp (writtenFlags b m) (f a v) := by
  cases h with
  | adc => exact adcByte_statusOp a v
  | sbc => exact sbcByte_statusOp a v
  | and | ora | eor => exact statusOp_setNZ _

theorem TestOp.writes {m r f} (h : TestOp m r f) (a v : Byte) : Writes (writtenFlags b m) (f a v) := by
  cases h with
  | cmp | cpx | cpy => exact compareByte_writes a v
  | bit => exact bitTestByte_writes a v

theorem ShiftOp.statusOp {m f} (h : ShiftOp m f) (v : Byte) : StatusOp (writtenFlags b m) (f v) := by
  cases h with
  | asl => exact statusOp_shift _ (.const (v <<< 1))
  | lsr => exact statusOp_shift _ (.const (v >>> 1))
  | rol => exact statusOp_shift _ (carryNat_carryOnly.comp fun c => (v <<< 1) ||| BitVec.ofNat 8 c)
  | ror => exact statusOp_shift _ (carryNat_carryOnly.comp fun c => (v >>> 1) ||| (BitVec.ofNat 8 c <<< 7))

theorem ModifyOp.statusOp {m f} (h : ModifyOp m f) (v : Byte) : StatusOp (writtenFlags b m) (f v) := by
  cases h with
  | inc | dec => exact statusOp_setNZ _
  | shift hf => exact hf.statusOp v

theorem ToA.writes {m r} (h : ToA m r) (v : Byte) : Writes (writtenFlags b m) (setNZ v) := by
  cases h <;> exact writes_setNZ v

theorem ToX.writes {m r} (h : ToX m r) (v : Byte) : Writes (writtenFlags b m) (setNZ v) := by
  cases h <;> exact writes_setNZ v

theorem ToY.writes {m r} (h : ToY m r) (v : Byte) : Writes (writtenFlags b m) (setNZ v) := by
  cases h <;> exact writes_setNZ v

theorem FlagOp.writes {m f v} (h : FlagOp m f v) : Writes (writtenFlags b m) (Machine.setFlag f v) := by
  cases h <;> exact writes_setFlag _ _

/-- What BRK leaves in P (46_stack_system R247). -/
theorem breakStatus_writes : Writes (writtenFlags b .BRK) fun p =>
    if b then setFlag .interruptDisable true (setFlag .brk true p) else setFlag .brk true p := by
  cases b with
  | false => exact writes_setFlag .brk true
  | true => exact .setFlag .interruptDisable (.const true) (writes_setFlag .brk true)

/-- A meaning writes no flag but those of its mnemonic. -/
theorem Meaning.flagsKept {m o F} (h : Meaning m o F) (s : State) :
    flagsKeptBut (writtenFlags s.config.brkSetsI m) s.p (F s).p := by
  cases h with
  | accumulate hf => exact (hf.statusOp _ _).writes.kept s.p
  | test hf => exact (hf.writes _ _).kept s.p
  | modify hf => exact (hf.statusOp _).writes.kept s.p
  | modifyA hf => exact (hf.statusOp _).writes.kept s.p
  | loadA | loadX | loadY | pla => exact (writes_setNZ _).kept s.p
  | toA hr => exact (hr.writes _).kept s.p
  | toX hr => exact (hr.writes _).kept s.p
  | toY hr => exact (hr.writes _).kept s.p
  | flag hf => exact hf.writes.kept s.p
  | plp | rti => exact fun f hf => absurd (mem_allFlags f) hf
  | brk => rw [takeBreak_p]; exact breakStatus_writes.kept s.p
  | branch => rw [branchIf_p]; exact flagsKeptBut_refl _ _
  | _ => exact flagsKeptBut_refl _ _

/-- The status table read by flag: the mnemonics that can write it (10_state R24). -/
theorem writtenFlags_listed (m : Mnemonic) :
    (.carry ∈ writtenFlags b m →
      m ∈ [.ADC, .SBC, .CMP, .CPX, .CPY, .ASL, .LSR, .ROL, .ROR, .CLC, .SEC, .PLP, .RTI]) ∧
    (.interruptDisable ∈ writtenFlags b m → m ∈ [.CLI, .SEI, .PLP, .RTI] ∨ (m = .BRK ∧ b = true)) ∧
    (.decimal ∈ writtenFlags b m → m ∈ [.CLD, .SED, .PLP, .RTI]) ∧
    (.brk ∈ writtenFlags b m → m ∈ [.BRK, .PLP, .RTI]) ∧
    (.unused ∈ writtenFlags b m → m ∈ [.PLP, .RTI]) ∧
    (.overflow ∈ writtenFlags b m → m ∈ [.ADC, .SBC, .BIT, .CLV, .PLP, .RTI]) ∧
    (.zero ∈ writtenFlags b m ∨ .negative ∈ writtenFlags b m →
      m ∈ [.ADC, .SBC, .CMP, .CPX, .CPY, .INC, .DEC, .INX, .INY, .DEX, .DEY, .AND, .ORA, .EOR, .BIT, .ASL, .LSR, .ROL,
        .ROR, .LDA, .LDX, .LDY, .TAX, .TAY, .TXA, .TYA, .TSX, .PLA, .PLP, .RTI]) := by
  cases b <;> cases m <;> decide

end

end Sys2Proof.Machine

/-!
Two states that differ in some flags of P only (10_state R27 to R30).
-/

namespace Sys2Proof.Machine

open Sys2Proof Sys2Proof.Claims

/-- Two states that agree in everything but the listed flags. -/
def agreeBut (fs : List Flag) (s t : State) : Prop := ∃ q, flagsKeptBut fs s.p q ∧ t = { s with p := q }

/-- Equality under a mask is agreement in the flags of the mask. -/
theorem and_eq_and_iff_flagsKeptBut {mask : Byte} {fs : List Flag} (hm : ∀ f, getFlag f mask = decide (f ∉ fs))
    (p q : Byte) : q &&& mask = p &&& mask ↔ flagsKeptBut fs p q := by
  have masked : ∀ f r, getFlag f (r &&& mask) = (getFlag f r && decide (f ∉ fs)) := fun f r => by
    rw [← hm, getFlag, BitVec.getLsbD_and]; rfl
  refine ⟨fun h f hf => ?_, fun h => status_ext fun f => ?_⟩
  · simpa [masked, hf] using congrArg (getFlag f) h
  · by_cases hf : f ∈ fs
    · simp [masked, hf]
    · simp [masked, h f hf]

theorem agreeOn_iff_agreeBut {mask : Byte} {fs : List Flag} (hm : ∀ f, getFlag f mask = decide (f ∉ fs))
    (s t : State) : agreeOn mask s t ↔ agreeBut fs s t := by
  constructor
  · rintro ⟨ht, hp⟩
    exact ⟨t.p, (and_eq_and_iff_flagsKeptBut hm _ _).mp hp, ht⟩
  · rintro ⟨q, hq, rfl⟩
    exact ⟨rfl, (and_eq_and_iff_flagsKeptBut hm _ _).mpr hq⟩

/-- The flags that no computation and no branch reads. -/
def unreadFlags : List Flag := [.interruptDisable, .decimal, .brk, .unused]

theorem operandByte_status (o : Operand) (s : State) (q : Byte) :
    operandByte o { s with p := q } = operandByte o s := by
  cases o with
  | memory m => cases m <;> rfl
  | _ => rfl

theorem Reads.status {o v} (hv : Reads o v) (s : State) (q : Byte) : v { s with p := q } = v s :=
  Option.some.inj (by rw [← hv, ← hv, operandByte_status])

theorem effectiveAddr_status (m : MemOperand) (s : State) (q : Byte) :
    effectiveAddr m { s with p := q } = effectiveAddr m s := by cases m <;> rfl

theorem loadByte_status (m : MemOperand) (s : State) (q : Byte) : loadByte m { s with p := q } = loadByte m s := by
  rw [loadByte, effectiveAddr_status, loadByte]

theorem branchCondition_status {fs : List Flag} (m : Mnemonic) {s : State} {q : Byte} (hfs : fs ⊆ unreadFlags)
    (hq : flagsKeptBut fs s.p q) : branchCondition m { s with p := q } = branchCondition m s := by
  have read : ∀ f ∉ unreadFlags, getFlag f q = getFlag f s.p := fun f hf => hq f fun h => hf (hfs h)
  have c := read .carry (by decide)
  have z := read .zero (by decide)
  have v := read .overflow (by decide)
  have n := read .negative (by decide)
  simp only [branchCondition, State.flag, c, z, v, n]

theorem pushedStatus_eq {fs : List Flag} {p q : Byte} (hfs : fs ⊆ [.brk, .unused]) (hq : flagsKeptBut fs p q) :
    pushedStatus q = pushedStatus p := by
  refine status_ext fun f => ?_
  simp only [getFlag_pushedStatus]
  by_cases hf : f ∈ fs
  · have : f = .brk ∨ f = .unused := by simpa using hfs hf
    rcases this with rfl | rfl <;> rfl
  · rw [hq f hf]

/-- From two states that differ in unread flags only, a meaning leads to two states that differ in those only; the two
instructions that push P, where what differs is forced to 1 in what they push. -/
theorem agreeBut_of_meaning {m o F} (h : Meaning m o F) {fs : List Flag} (hfs : fs ⊆ unreadFlags)
    (hpush : m ∈ [.PHP, .BRK] → fs ⊆ [.brk, .unused]) {s s' : State} (hs : agreeBut fs s s') :
    agreeBut fs (F s) (F s') := by
  obtain ⟨q, hq, rfl⟩ := hs
  have hc : Flag.carry ∉ fs := fun hf => absurd (hfs hf) (by decide)
  have op : ∀ {g}, StatusOp (writtenFlags s.config.brkSetsI m) g →
      (g q).1 = (g s.p).1 ∧ flagsKeptBut fs (g s.p).2 (g q).2 :=
    fun hg => ⟨hg.value _ _ (hq _ hc), hg.writes.agree hc hq⟩
  have status : ∀ {h}, Writes (writtenFlags s.config.brkSetsI m) h → flagsKeptBut fs (h s.p) (h q) :=
    fun hh => hh.agree hc hq
  cases h with
  | accumulate hf hv =>
    obtain ⟨ha, hp⟩ := op (hf.statusOp s.a _)
    exact ⟨_, hp, by simp only [accumulate, setA, hv.status, ha]⟩
  | test hf hv =>
    exact ⟨_, status (hf.writes _ _), by cases hf <;> simp only [test, hv.status]⟩
  | modify hf w =>
    obtain ⟨hr, hp⟩ := op (hf.statusOp (loadByte w s).1)
    exact ⟨_, hp, by simp only [modifyByte, loadByte_status, effectiveAddr_status, hr]⟩
  | modifyA hf =>
    obtain ⟨hr, hp⟩ := op (hf.statusOp s.a)
    exact ⟨_, hp, by simp only [modifyA, setA, hr]⟩
  | loadA hv => exact ⟨_, status (writes_setNZ _), by simp only [loadA, setA, hv.status]⟩
  | loadX hv => exact ⟨_, status (writes_setNZ _), by simp only [loadX, setX, hv.status]⟩
  | loadY hv => exact ⟨_, status (writes_setNZ _), by simp only [loadY, setY, hv.status]⟩
  | store hr w => exact ⟨q, hq, by cases hr <;> simp only [storeByte, effectiveAddr_status]⟩
  | toA hr => exact ⟨_, status (hr.writes _), by cases hr <;> rfl⟩
  | toX hr => exact ⟨_, status (hr.writes _), by cases hr <;> rfl⟩
  | toY hr => exact ⟨_, status (hr.writes _), by cases hr <;> rfl⟩
  | flag hf => exact ⟨_, status hf.writes, rfl⟩
  | pla => exact ⟨_, status (writes_setNZ _), rfl⟩
  | branch hm off =>
    exact ⟨q, by simpa using hq, by simp only [branchIf_eq, branchCondition_status _ hfs hq]⟩
  | plp | rti => exact ⟨_, flagsKeptBut_refl _ _, rfl⟩
  | php => exact ⟨q, hq, by simp only [push, pushedStatus_eq (hpush (by decide)) hq]⟩
  | brk =>
    refine ⟨_, by rw [takeBreak_p]; exact status breakStatus_writes, ?_⟩
    simp only [takeBreak_eq, pushedStatus_eq (hpush (by decide)) ((writes_setFlag .brk true).agree hc hq)]
    rfl
  | txs | jump | jumpIndirect | call | ret | pha | none => exact ⟨q, hq, rfl⟩

theorem fetch8_status (s : State) (q : Byte) :
    fetch8 { s with p := q } = ((fetch8 s).1, { (fetch8 s).2 with p := q }) := rfl

/-- What is fetched does not depend on P. -/
theorem fetchInstr_status (s : State) (q : Byte) :
    fetchInstr { s with p := q } = ((fetchInstr s).1, { (fetchInstr s).2 with p := q }) := by
  unfold fetchInstr
  rw [fetch8_status]
  cases formatOf (fetch8 s).1 <;> rfl

/-- Two states that differ in unread flags only take any instruction to two that differ in those only, if those flags
are not seen in a pushed P. -/
theorem exec_agreeBut {i : Instr} {fs : List Flag} (hfs : fs ⊆ unreadFlags)
    (hpush : i.mnemonic ∈ [.PHP, .BRK] → fs ⊆ [.brk, .unused]) {s s' t : State} (hs : agreeBut fs s s')
    (h : exec i s = .next t) : ∃ t', exec i s' = .next t' ∧ agreeBut fs t t' := by
  obtain ⟨F, hF, rfl, he⟩ := meaning_of_exec h
  exact ⟨F s', he s', agreeBut_of_meaning hF hfs hpush hs⟩

end Sys2Proof.Machine

/-!
V after ADC and SBC (10_state R31).
-/

namespace Sys2Proof.Machine

open Sys2Proof Sys2Proof.Claims

/-- The next state of an instruction that combines A with its operand byte. -/
theorem accumulate_of_meaning {m o F f} (h : Meaning m o F) (hf : AccumulateOp m f) {s : State} {v : Byte × Bus}
    (hv : operandByte o s = some v) : F s = accumulate f v s := by
  cases h with
  | accumulate hg hw =>
    obtain rfl := Option.some.inj ((hw s).symm.trans hv)
    cases hf <;> cases hg <;> rfl
  | test hg => cases hf <;> cases hg
  | modify hg =>
    cases hg with
    | shift hg => cases hf <;> cases hg
    | _ => cases hf
  | store hr => cases hf <;> cases hr
  | modifyA | toA | toX | toY | flag | branch | none => cases hv
  | _ => cases hf

/-- The sign bit of a byte tells its two's-complement value from its unsigned one. -/
theorem toInt_eq_sub_sign (v : Byte) : v.toInt = v.toNat - 256 * (v.getLsbD 7).toNat := by
  rw [getLsbD_seven, BitVec.toInt_eq_toNat_cond]
  by_cases h : 128 ≤ v.toNat
  · simp [h]
    omega
  · simp [h]
    omega

/-- V after ADC (41_arithmetic R101): the operands have one sign and the result has the other. -/
theorem adcByte_overflow (a v p : Byte) :
    getFlag .overflow (adcByte a v p).2 = true ↔
      ¬ (-128 ≤ a.toInt + v.toInt + (getFlag .carry p).toNat ∧ a.toInt + v.toInt + (getFlag .carry p).toNat ≤ 127) := by
  obtain ⟨hr, hp⟩ := adcByte_spec a v p
  have hc := carryNat_le p
  have ha := a.isLt
  have hv := v.isLt
  rw [hp, getFlag_setNZ, ← carryNat_eq, toInt_eq_sub_sign, toInt_eq_sub_sign]
  simp only [getFlag_setFlag_same, getLsbD_seven, hr]
  by_cases hsa : 128 ≤ a.toNat <;> by_cases hsv : 128 ≤ v.toNat <;> simp [hsa, hsv] <;> omega

/-- V after SBC (41_arithmetic R102): the operands differ in sign and so do A and the result. -/
theorem sbcByte_overflow (a v p : Byte) :
    getFlag .overflow (sbcByte a v p).2 = true ↔
      ¬ (-128 ≤ a.toInt - v.toInt - (1 - (getFlag .carry p).toNat) ∧
        a.toInt - v.toInt - (1 - (getFlag .carry p).toNat) ≤ 127) := by
  obtain ⟨hr, hp⟩ := sbcByte_spec a v p
  have hc := carryNat_le p
  have ha := a.isLt
  have hv := v.isLt
  rw [hp, getFlag_setNZ, ← carryNat_eq, toInt_eq_sub_sign, toInt_eq_sub_sign]
  simp only [getFlag_setFlag_same, getLsbD_seven]
  by_cases hsa : 128 ≤ a.toNat <;> by_cases hsv : 128 ≤ v.toNat <;> simp [hsa, hsv] <;> omega

end Sys2Proof.Machine

namespace Sys2Proof.Claims

open Sys2Proof Sys2Proof.Machine

/-- Settles O13: the fetch only reads, and every meaning keeps the parameters and the bindings. -/
theorem stepKeepsTheConfiguration : Obligations.StepKeepsTheConfiguration := by
  intro s t h
  obtain ⟨-, -, hexec⟩ := step_next h
  obtain ⟨hbus, hconfig, -, -⟩ := (exec_shape hexec).keeps
  exact ⟨hconfig.trans (fetchInstr_config s), hbus.shape.trans (fetchInstr_readsOnly s).shape⟩

/-- Settles O15: the fetch does not read P, no meaning reads Break or Unused, and a pushed P has both set. -/
theorem breakAndUnusedAreUnobservable : Obligations.BreakAndUnusedAreUnobservable := by
  intro s s' t hs h
  have mask : ∀ f, getFlag f 0xCF = decide (f ∉ [Flag.brk, .unused]) := by intro f; cases f <;> decide
  simp only [agreeOn_iff_agreeBut mask] at hs ⊢
  obtain ⟨q, hq, rfl⟩ := hs
  obtain ⟨hr, hf, hexec⟩ := step_next h
  have fetched : agreeBut [.brk, .unused] (fetchInstr s).2 { (fetchInstr s).2 with p := q } :=
    ⟨q, by rwa [fetchInstr_eq], rfl⟩
  rw [step_ready (s := { s with p := q }) hr hf, fetchInstr_status]
  exact exec_agreeBut (by decide) (fun _ => List.Subset.refl _) fetched hexec

/-- Settles O16: no meaning reads Interrupt Disable or Decimal, and only PHP and BRK push P. -/
theorem interruptDisableAndDecimalDecideNothing : Obligations.InterruptDisableAndDecimalDecideNothing := by
  intro i s s' t hphp hbrk hs h
  have mask : ∀ f, getFlag f 0xF3 = decide (f ∉ [Flag.interruptDisable, .decimal]) := by intro f; cases f <;> decide
  simp only [agreeOn_iff_agreeBut mask] at hs ⊢
  exact exec_agreeBut (by decide) (fun hm => by simp [hphp, hbrk] at hm) hs h

/-- Settles O17: register by register, the operations that write it. -/
theorem registersAreWrittenOnlyByTheListedInstructions :
    Obligations.RegistersAreWrittenOnlyByTheListedInstructions := by
  intro i s t h
  obtain ⟨-, -, hreset, -⟩ := (exec_shape h).keeps
  obtain ⟨F, hF, rfl, -⟩ := meaning_of_exec h
  exact ⟨hF.writes_a s, hF.writes_x s, hF.writes_y s, hF.writes_sp s, hF.writes_pc s, hreset⟩

/-- Settles O18: a changed flag is one its mnemonic writes, and the table lists it. -/
theorem flagsAreWrittenOnlyByTheListedInstructions : Obligations.FlagsAreWrittenOnlyByTheListedInstructions := by
  intro i s t h
  obtain ⟨F, hF, rfl, -⟩ := meaning_of_exec h
  have written : ∀ f, (F s).flag f ≠ s.flag f → f ∈ writtenFlags s.config.brkSetsI i.mnemonic :=
    fun f => not_imp_comm.mp (hF.flagsKept s f)
  obtain ⟨carry, interruptDisable, decimal, brk, unused, overflow, nz⟩ :=
    writtenFlags_listed (b := s.config.brkSetsI) i.mnemonic
  exact ⟨fun h => carry (written _ h), fun h => interruptDisable (written _ h), fun h => decimal (written _ h),
    fun h => brk (written _ h), fun h => unused (written _ h), fun h => overflow (written _ h),
    fun h => nz (h.imp (written _) (written _))⟩

/-- Settles O27: V as the sign bits give it, against the exact sum or difference. -/
theorem overflowIsSignedOverflow : Obligations.OverflowIsSignedOverflow := by
  intro i s t v b hv h
  obtain ⟨F, hF, rfl, -⟩ := meaning_of_exec h
  refine ⟨fun hm => ?_, fun hm => ?_⟩
  · have hop : AccumulateOp i.mnemonic adcByte := hm ▸ .adc
    rw [accumulate_of_meaning hF hop hv]
    exact adcByte_overflow s.a v s.p
  · have hop : AccumulateOp i.mnemonic sbcByte := hm ▸ .sbc
    rw [accumulate_of_meaning hF hop hv]
    exact sbcByte_overflow s.a v s.p

end Sys2Proof.Claims

/-!
The bus arbiter's first match (20_memory R41, R42), and what a whole step keeps of the bus.
-/

namespace Sys2Proof.Machine

open Sys2Proof

theorem Binding.contains_iff (b : Binding) (x : Addr) :
    b.contains x = true ↔ b.first.toNat ≤ x.toNat ∧ x.toNat ≤ b.last.toNat := by
  simp only [Binding.contains, Bool.and_eq_true, decide_eq_true_eq]

theorem Binding.contains_false_iff (b : Binding) (x : Addr) :
    b.contains x = false ↔ ¬ (b.first.toNat ≤ x.toNat ∧ x.toNat ≤ b.last.toNat) := by
  rw [← b.contains_iff, Bool.not_eq_true]

/-- The device-local offset of an address at or above the binding's start does not wrap. -/
theorem Binding.toNat_offset (b : Binding) {x : Addr} (h : b.first.toNat ≤ x.toNat) :
    (x - b.first).toNat = x.toNat - b.first.toNat :=
  BitVec.toNat_sub_of_le (BitVec.le_def.mpr h)

/-- A read passes over the bindings that do not contain the address. -/
theorem Bus.read_append_of_miss {before : Bus} {x : Addr} (rest : Bus) (h : ∀ c ∈ before, c.contains x = false) :
    Bus.read (before ++ rest) x = ((Bus.read rest x).1, before ++ (Bus.read rest x).2) := by
  induction before with
  | nil => rfl
  | cons c before ih =>
    obtain ⟨hc, hbefore⟩ := List.forall_mem_cons.mp h
    rw [List.cons_append, Bus.read_miss _ hc, ih hbefore, List.cons_append]

/-- A write passes over the bindings that do not contain the address. -/
theorem Bus.write_append_of_miss {before : Bus} {x : Addr} (rest : Bus) (v : Byte)
    (h : ∀ c ∈ before, c.contains x = false) :
    Bus.write (before ++ rest) x v = before ++ Bus.write rest x v := by
  induction before with
  | nil => rfl
  | cons c before ih =>
    obtain ⟨hc, hbefore⟩ := List.forall_mem_cons.mp h
    rw [List.cons_append, Bus.write_miss _ v hc, ih hbefore, List.cons_append]

/-- What a whole step keeps: the fetch only reads, and the instruction's accesses come after it. -/
theorem step_keeps {s t : State} (h : step s = .next t) :
    s.bus.Evolves t.bus ∧ t.resetDone = s.resetDone := by
  obtain ⟨-, -, hexec⟩ := step_next h
  obtain ⟨hbus, -, hreset, -⟩ := (exec_shape hexec).keeps
  exact ⟨(fetchInstr_readsOnly s).toEvolves.trans hbus, hreset.trans (fetchInstr_resetDone s)⟩

theorem State.inv_iff (s : State) :
    s.inv = true ↔ s.resetDone = true ∧ s.bus.fits = true ∧ s.bus.wf = true := by
  simp only [State.inv, Bool.and_eq_true, and_assoc]

end Sys2Proof.Machine

namespace Sys2Proof.Claims

open Sys2Proof Sys2Proof.Machine

/-- Settles O12: no access changes the configuration check, and on an accepted bus all keep the canonical form. -/
theorem stepKeepsTheInvariant : Obligations.StepKeepsTheInvariant := by
  intro s t hinv h
  obtain ⟨hr, hf, hw⟩ := s.inv_iff.mp hinv
  obtain ⟨hbus, hreset⟩ := step_keeps h
  exact t.inv_iff.mpr ⟨hreset.trans hr, hbus.fits.trans hf, hbus.wf hf hw⟩

/-- Settles O14: no access changes a write-ignoring memory. -/
theorem stepKeepsWriteIgnoringMemory : Obligations.StepKeepsWriteIgnoringMemory :=
  fun _ _ h => (step_keeps h).1.rom

/-- Settles O23: the scan passes over the bindings before the first match, or over all of them. -/
theorem busReadTakesTheFirstMatch : Obligations.BusReadTakesTheFirstMatch := by
  refine ⟨fun bus x hmiss => ?_, fun before after b x hmiss hfirst hlast =>
    ⟨x - b.first, b.toNat_offset hfirst, ?_⟩⟩
  · have hskip := Bus.read_append_of_miss [] fun c hc => (c.contains_false_iff x).mpr (hmiss c hc)
    simpa using hskip
  · have hhit : b.contains x = true := (b.contains_iff x).mpr ⟨hfirst, hlast⟩
    rw [Bus.read_append_of_miss _ fun c hc => (c.contains_false_iff x).mpr (hmiss c hc), Bus.read_hit after hhit]

/-- Settles O24: the same scan, for a write. -/
theorem busWriteTakesTheFirstMatch : Obligations.BusWriteTakesTheFirstMatch := by
  refine ⟨fun bus x v hmiss => ?_, fun before after b x v hmiss hfirst hlast =>
    ⟨x - b.first, b.toNat_offset hfirst, ?_⟩⟩
  · have hskip := Bus.write_append_of_miss [] v fun c hc => (c.contains_false_iff x).mpr (hmiss c hc)
    simpa using hskip
  · have hhit : b.contains x = true := (b.contains_iff x).mpr ⟨hfirst, hlast⟩
    rw [Bus.write_append_of_miss _ v fun c hc => (c.contains_false_iff x).mpr (hmiss c hc), Bus.write_hit after v hhit]

end Sys2Proof.Claims

/-!
The decoder and the encoder are inverse (30_encoding R61, R62, R79, R81): the opcode byte selects the instruction, and
the bytes of an encoding decode back.
-/

namespace Sys2Proof.Laws.OpcodeSelects

/-- What `Statement` says of one instruction, said of every one (the opcode list, family by family). -/
theorem statement : ∀ i : Instr, Statement i
  | .adcImm v => adcImm v | .adcZp z => adcZp z | .adcZpx z => adcZpx z | .adcAbs addr => adcAbs addr
  | .adcAbsx addr => adcAbsx addr | .adcAbsy addr => adcAbsy addr | .adcIndx z => adcIndx z | .adcIndy z => adcIndy z
  | .sbcImm v => sbcImm v | .sbcZp z => sbcZp z | .sbcZpx z => sbcZpx z | .sbcAbs addr => sbcAbs addr
  | .sbcAbsx addr => sbcAbsx addr | .sbcAbsy addr => sbcAbsy addr | .sbcIndx z => sbcIndx z | .sbcIndy z => sbcIndy z
  | .cmpImm v => cmpImm v | .cmpZp z => cmpZp z | .cmpZpx z => cmpZpx z | .cmpAbs addr => cmpAbs addr
  | .cmpAbsx addr => cmpAbsx addr | .cmpAbsy addr => cmpAbsy addr | .cmpIndx z => cmpIndx z | .cmpIndy z => cmpIndy z
  | .cpxImm v => cpxImm v | .cpxZp z => cpxZp z | .cpxAbs addr => cpxAbs addr
  | .cpyImm v => cpyImm v | .cpyZp z => cpyZp z | .cpyAbs addr => cpyAbs addr
  | .incZp z => incZp z | .incZpx z => incZpx z | .incAbs addr => incAbs addr | .incAbsx addr => incAbsx addr
  | .decZp z => decZp z | .decZpx z => decZpx z | .decAbs addr => decAbs addr | .decAbsx addr => decAbsx addr
  | .inx => inx | .iny => iny | .dex => dex | .dey => dey
  | .andImm v => andImm v | .andZp z => andZp z | .andZpx z => andZpx z | .andAbs addr => andAbs addr
  | .andAbsx addr => andAbsx addr | .andAbsy addr => andAbsy addr | .andIndx z => andIndx z | .andIndy z => andIndy z
  | .oraImm v => oraImm v | .oraZp z => oraZp z | .oraZpx z => oraZpx z | .oraAbs addr => oraAbs addr
  | .oraAbsx addr => oraAbsx addr | .oraAbsy addr => oraAbsy addr | .oraIndx z => oraIndx z | .oraIndy z => oraIndy z
  | .eorImm v => eorImm v | .eorZp z => eorZp z | .eorZpx z => eorZpx z | .eorAbs addr => eorAbs addr
  | .eorAbsx addr => eorAbsx addr | .eorAbsy addr => eorAbsy addr | .eorIndx z => eorIndx z | .eorIndy z => eorIndy z
  | .bitZp z => bitZp z | .bitAbs addr => bitAbs addr
  | .aslAcc => aslAcc | .aslZp z => aslZp z | .aslZpx z => aslZpx z | .aslAbs addr => aslAbs addr
  | .aslAbsx addr => aslAbsx addr
  | .lsrAcc => lsrAcc | .lsrZp z => lsrZp z | .lsrZpx z => lsrZpx z | .lsrAbs addr => lsrAbs addr
  | .lsrAbsx addr => lsrAbsx addr
  | .rolAcc => rolAcc | .rolZp z => rolZp z | .rolZpx z => rolZpx z | .rolAbs addr => rolAbs addr
  | .rolAbsx addr => rolAbsx addr
  | .rorAcc => rorAcc | .rorZp z => rorZp z | .rorZpx z => rorZpx z | .rorAbs addr => rorAbs addr
  | .rorAbsx addr => rorAbsx addr
  | .ldaImm v => ldaImm v | .ldaZp z => ldaZp z | .ldaZpx z => ldaZpx z | .ldaAbs addr => ldaAbs addr
  | .ldaAbsx addr => ldaAbsx addr | .ldaAbsy addr => ldaAbsy addr | .ldaIndx z => ldaIndx z | .ldaIndy z => ldaIndy z
  | .ldxImm v => ldxImm v | .ldxZp z => ldxZp z | .ldxZpy z => ldxZpy z | .ldxAbs addr => ldxAbs addr
  | .ldxAbsy addr => ldxAbsy addr
  | .ldyImm v => ldyImm v | .ldyZp z => ldyZp z | .ldyZpx z => ldyZpx z | .ldyAbs addr => ldyAbs addr
  | .ldyAbsx addr => ldyAbsx addr
  | .staZp z => staZp z | .staZpx z => staZpx z | .staAbs addr => staAbs addr | .staAbsx addr => staAbsx addr
  | .staAbsy addr => staAbsy addr | .staIndx z => staIndx z | .staIndy z => staIndy z
  | .stxZp z => stxZp z | .stxZpy z => stxZpy z | .stxAbs addr => stxAbs addr
  | .styZp z => styZp z | .styZpx z => styZpx z | .styAbs addr => styAbs addr
  | .tax => tax | .tay => tay | .txa => txa | .tya => tya | .tsx => tsx | .txs => txs | .clc => clc | .sec => sec
  | .cli => cli | .sei => sei | .cld => cld | .sed => sed | .clv => clv | .bpl off => bpl off | .bmi off => bmi off
  | .bvc off => bvc off | .bvs off => bvs off | .bcc off => bcc off | .bcs off => bcs off | .bne off => bne off
  | .beq off => beq off
  | .jmpAbs addr => jmpAbs addr | .jmpInd ptr => jmpInd ptr
  | .jsr addr => jsr addr | .rts => rts | .pha => pha | .pla => pla | .php => php | .plp => plp | .brk => brk
  | .rti => rti | .nop => nop | .unrecognised op => unrecognised op

end Sys2Proof.Laws.OpcodeSelects

namespace Sys2Proof

/-- The bytes of a well-formed instruction decode to it, whatever bytes follow. -/
theorem decode_encode {i : Instr} (hwf : i.wf = true) (rest : List Byte) :
    decode (encode i ++ rest) = .ok (i, rest) := by
  have selects := Laws.OpcodeSelects.statement i hwf
  split at selects
  · next henc => simp only [henc, List.cons_append, List.nil_append, decode, selects]
  · next henc =>
    obtain ⟨f, hf, rfl⟩ := selects
    simp only [henc, List.cons_append, List.nil_append, decode, hf]
  · next henc =>
    obtain ⟨f, hf, rfl⟩ := selects
    simp only [henc, List.cons_append, List.nil_append, decode, hf]
  · exact selects.elim

/-- With two bytes after it, every opcode byte decodes, and takes as many bytes as `instrLength` says. -/
theorem decode_opcode (op b c : Byte) (rest : List Byte) :
    ∃ i, decode (op :: b :: c :: rest) = .ok (i, (op :: b :: c :: rest).drop (instrLength op)) := by
  cases hf : formatOf op with
  | complete i => exact ⟨i, by simp [decode, instrLength, hf]⟩
  | byteOperand f => exact ⟨f b, by simp [decode, instrLength, hf]⟩
  | wordOperand f => exact ⟨f (word16 c b), by simp [decode, instrLength, hf]⟩

theorem decode_unrecognised {op : Byte} (h : op ∈ unrecognisedOpcodes) (rest : List Byte) :
    decode (op :: rest) = .ok (.unrecognised op, rest) :=
  decode_encode (i := .unrecognised op) (List.contains_iff_mem.mpr h) rest

/-- A byte that decodes to an unrecognised instruction is the one it carries, and is listed. -/
theorem mem_of_decode_unrecognised {op op' : Byte} {bytes rest : List Byte}
    (h : decode (op :: bytes) = .ok (.unrecognised op', rest)) : op ∈ unrecognisedOpcodes := by
  obtain ⟨hwf, henc, -⟩ := decode_cons_ok h
  obtain ⟨rfl, -⟩ := List.cons.inj henc
  exact List.contains_iff_mem.mp hwf

end Sys2Proof

/-!
Branches to a label (30_encoding R76, R83): the offset an assembler encodes, sign-extended, is the distance from the
next instruction.
-/

namespace Sys2Proof.Machine

/-- Adding a byte's signed value, where it is the distance to the label, leads to the label modulo 65536. -/
theorem add_sext16_eq {next : Nat} {label : Addr} {off : Byte} (h : off.toInt = label.toNat - (next : Int)) :
    BitVec.ofNat 16 next + sext16 off = label :=
  calc BitVec.ofNat 16 next + sext16 off
    _ = BitVec.ofInt 16 next + BitVec.ofInt 16 off.toInt := by rw [BitVec.ofInt_natCast]; rfl
    _ = BitVec.ofInt 16 label.toNat := by rw [← BitVec.ofInt_add, h, add_sub_cancel]
    _ = label := by rw [BitVec.ofInt_natCast, BitVec.ofNat_toNat, BitVec.setWidth_eq]

/-- An offset that is encoded is the distance from the next instruction, and fits a signed byte. -/
theorem toInt_of_branchOffset {address label : Addr} {off : Byte} (h : branchOffset address label = some off) :
    off.toInt = label.toNat - (address.toNat + 2) := by
  unfold branchOffset at h
  split at h
  · obtain rfl := Option.some.inj h
    exact BitVec.toInt_ofInt_eq_self (by decide) (by omega) (by omega)
  · cases h

theorem add_sext16_of_branchOffset {address label : Addr} {off : Byte} (h : branchOffset address label = some off) :
    address + 2 + sext16 off = label := by
  have hnext : address + 2 = BitVec.ofNat 16 (address.toNat + 2) := by
    rw [BitVec.ofNat_add, BitVec.ofNat_toNat, BitVec.setWidth_eq]
    rfl
  rw [hnext, add_sext16_eq (by exact_mod_cast toInt_of_branchOffset h)]

theorem branchOffset_eq_none_iff (address label : Addr) :
    branchOffset address label = none ↔
      ((label.toNat : Int) < address.toNat + 2 - 128 ∨ (label.toNat : Int) > address.toNat + 2 + 127) := by
  unfold branchOffset
  split
  · simp only [reduceCtorEq, false_iff]
    omega
  · simp only [true_iff]
    omega

/-- An instruction with a relative operand is a branch. -/
theorem branch_of_meaning {m : Mnemonic} {off : Byte} {F : State → State} (h : Meaning m (.relative off) F)
    (s : State) : F s = branchIf (branchCondition m s) off s := by
  cases h with
  | branch => rfl
  | accumulate _ hv | test _ hv | loadA hv | loadX hv | loadY hv => cases hv s

end Sys2Proof.Machine

/-!
Effective addresses (30_encoding R67 to R75) as numbers.
-/

namespace Sys2Proof.Machine

/-- An index added to an address wraps at 65536 (20_memory R52). -/
theorem add_zext16_toNat (a : Addr) (v : Byte) : (a + zext16 v).toNat = (a.toNat + v.toNat) % 65536 := by
  rw [BitVec.toNat_add, zext16_toNat]

/-- An index added to a zero-page address stays in page 0. -/
theorem zext16_add_toNat (z v : Byte) : (zext16 (z + v)).toNat = (z.toNat + v.toNat) % 256 := by
  rw [zext16_toNat, BitVec.toNat_add]

/-- A zero-page pointer: two reads in page 0, low byte first, the second address wrapping at 256 (D6). -/
theorem zeroPagePointer_reads (z : Byte) (bus : Bus) :
    ∃ p p' : Addr, ∃ lo hi : Byte, ∃ b c : Bus, p.toNat = z.toNat ∧ p'.toNat = (z.toNat + 1) % 256 ∧
      bus.read p = (lo, b) ∧ b.read p' = (hi, c) ∧ zeroPagePointer z bus = (word16 hi lo, c) :=
  ⟨zext16 z, zext16 (z + 1), _, _, _, _, zext16_toNat z, zext16_add_toNat z 1, rfl, rfl, rfl⟩

end Sys2Proof.Machine

namespace Sys2Proof.Claims

open Sys2Proof Sys2Proof.Machine

/-- Settles O2: the first byte of an encoding selects its instruction, and the others are its operand. -/
theorem decodeInvertsEncode : Obligations.DecodeInvertsEncode :=
  fun _ rest hwf => decode_encode hwf rest

/-- Settles O19: what a meaning does to memory is one of a few shapes, and each writes its stored addresses only. -/
theorem onlyStoredBytesOfMemoryChange : Obligations.OnlyStoredBytesOfMemoryChange := by
  intro i s t h
  obtain ⟨-, -, -, hkept⟩ := (exec_shape h).keeps
  exact hkept

/-- Settles O3: the opcode map gives the bytes each format was decoded from. -/
theorem encodeInvertsDecode : Obligations.EncodeInvertsDecode := by
  intro bytes rest i h
  cases bytes with
  | nil => cases h
  | cons op bytes =>
    obtain ⟨hwf, henc, -⟩ := decode_cons_ok h
    exact ⟨hwf, henc⟩

/-- Settles O4: two bytes are enough for every format. -/
theorem everyOpcodeByteDecodes : Obligations.EveryOpcodeByteDecodes := by
  intro op b c rest
  obtain ⟨i, hd⟩ := decode_opcode op b c rest
  obtain ⟨hwf, -, hlen⟩ := decode_cons_ok hd
  exact ⟨i, hwf, hd, hlen⟩

/-- Settles O5: a listed byte is the encoding of its unrecognised instruction, and no other byte is one. -/
theorem unrecognisedBytesAreTheListedOnes : Obligations.UnrecognisedBytesAreTheListedOnes :=
  ⟨rfl, fun _ rest => ⟨fun h => decode_unrecognised h rest, fun h _ _ hd => h (mem_of_decode_unrecognised hd)⟩⟩

/-- Settles O39: a relative operand makes the instruction a branch, and the encoded offset is the distance. -/
theorem branchOffsetReachesTheLabel : Obligations.BranchOffsetReachesTheLabel := by
  refine ⟨fun i address label off s hop hoff hpc hc => ?_, branchOffset_eq_none_iff⟩
  obtain ⟨F, hF, he⟩ := exec_meaning i
  rw [hop] at hF
  rw [he, branch_of_meaning hF, hc, branchIf_eq, if_pos rfl, hpc, add_sext16_of_branchOffset hoff]

/-- Settles O1: the decoder run on each word. -/
theorem decodeReadsSampleWords : Obligations.DecodeReadsSampleWords :=
  ⟨rfl, rfl, rfl, rfl, rfl, rfl, rfl, rfl, rfl⟩

/-- Settles O21: the index is added in 8 bits in page 0 and in 16 bits elsewhere. -/
theorem directModesEffectiveAddress : Obligations.DirectModesEffectiveAddress :=
  fun s z addr =>
    ⟨⟨zext16_toNat z, rfl⟩, ⟨zext16_add_toNat z s.x, rfl⟩, ⟨zext16_add_toNat z s.y, rfl⟩, ⟨rfl, rfl⟩,
      ⟨add_zext16_toNat addr s.x, rfl⟩, ⟨add_zext16_toNat addr s.y, rfl⟩⟩

/-- Settles O22: (zp,X) is a pointer at z + X, (zp),Y is a pointer at z with Y added to it. -/
theorem indirectModesEffectiveAddress : Obligations.IndirectModesEffectiveAddress := by
  intro s z
  refine ⟨?_, ?_⟩
  · obtain ⟨p, p', lo, hi, b, c, hp, hp', hlo, hhi, hptr⟩ := zeroPagePointer_reads (z + s.x) s.bus
    have hea : effectiveAddr (.indx z) s = (word16 hi lo, c) := hptr
    refine ⟨p, p', lo, hi, b, c, ?_, ?_, hlo, hhi, ?_, by rw [hea]⟩
    · rw [hp, BitVec.toNat_add]
    · rw [hp', BitVec.toNat_add, Nat.mod_add_mod]
    · rw [hea, word16_toNat]
  · obtain ⟨p, p', lo, hi, b, c, hp, hp', hlo, hhi, hptr⟩ := zeroPagePointer_reads z s.bus
    have hea : effectiveAddr (.indy z) s = (word16 hi lo + zext16 s.y, c) := by
      simp only [effectiveAddr, baseAddr, hptr]
    refine ⟨p, p', lo, hi, b, c, hp, hp', hlo, hhi, ?_, by rw [hea]⟩
    rw [hea, add_zext16_toNat, word16_toNat]

end Sys2Proof.Claims

/-!
Arithmetic (41_arithmetic R101 to R111): the next state of a read-class or read-modify-write instruction from its
mnemonic, and what the status computations leave in each flag.
-/

namespace Sys2Proof.Machine

open Sys2Proof Sys2Proof.Claims

/-! ### The next state of an instruction, by its operation -/

theorem AccumulateOp.accessClass {m f} (h : AccumulateOp m f) : m.accessClass = .read := by cases h <;> rfl

theorem TestOp.accessClass {m r f} (h : TestOp m r f) : m.accessClass = .read := by cases h <;> rfl

theorem ModifyOp.accessClass {m f} (h : ModifyOp m f) : m.accessClass = .modify := by
  cases h with
  | shift hf => cases hf <;> rfl
  | _ => rfl

theorem ShiftOp.unique {m f g} (hf : ShiftOp m f) (hg : ShiftOp m g) : f = g := by cases hf <;> cases hg <;> rfl

theorem ModifyOp.unique {m f g} (hf : ModifyOp m f) (hg : ModifyOp m g) : f = g := by
  cases hf with
  | inc | dec =>
    cases hg with
    | shift hs => cases hs
    | _ => rfl
  | shift hf =>
    cases hg with
    | shift hg => exact hf.unique hg
    | _ => cases hf

/-- A read-class instruction has an operand byte in every state (30_encoding R78); a memory operand has one whatever is
done with it. -/
theorem reads_of_meaning {m o F} (h : Meaning m o F) (hm : m.accessClass = .read) : ∃ v, Reads o v := by
  cases h with
  | accumulate _ hv | test _ hv | loadA hv | loadX hv | loadY hv => exact ⟨_, hv⟩
  | modify _ w | store _ w => exact ⟨loadByte w, fun _ => rfl⟩
  | modifyA hf | toA hf | toX hf | toY hf | flag hf => cases hf <;> cases hm
  | branch hb => cases hb.symm.trans hm
  | none hn => rcases List.mem_pair.mp hn with rfl | rfl <;> cases hm
  | _ => cases hm

/-- The next state of an instruction that tests its operand byte. -/
theorem test_of_meaning {m o F r f} (h : Meaning m o F) (hf : TestOp m r f) {s : State} {v : Byte × Bus}
    (hv : operandByte o s = some v) : F s = test (f (r s)) v s := by
  cases h with
  | test hg hw =>
    obtain rfl := Option.some.inj ((hw s).symm.trans hv)
    cases hf <;> cases hg <;> rfl
  | accumulate hg => cases hf <;> cases hg
  | modify hg => cases hg.accessClass.symm.trans hf.accessClass
  | store hr => cases hf <;> cases hr
  | modifyA | toA | toX | toY | flag | branch | none => cases hv
  | _ => cases hf

/-- A read-modify-write instruction modifies a byte of memory, or A where it is a shift (30_encoding R65). -/
theorem modify_of_meaning {m o F f} (h : Meaning m o F) (hf : ModifyOp m f) :
    (∃ w, o = .memory w ∧ F = modifyByte f w) ∨ (ShiftOp m f ∧ o = .accumulator ∧ F = modifyA f) := by
  have hm := hf.accessClass
  cases h with
  | modify hg w =>
    obtain rfl := hf.unique hg
    exact .inl ⟨w, rfl, rfl⟩
  | modifyA hg =>
    obtain rfl := hf.unique (.shift hg)
    exact .inr ⟨hg, rfl, rfl⟩
  | accumulate hg => cases hg.accessClass.symm.trans hm
  | test hg => cases hg.accessClass.symm.trans hm
  | store hg | toA hg | toX hg | toY hg | flag hg => cases hg <;> cases hm
  | branch hb => cases hb.symm.trans hm
  | none hn => rcases List.mem_pair.mp hn with rfl | rfl <;> cases hm
  | _ => cases hm

/-- An instruction that combines A with an operand byte, from its mnemonic alone. -/
theorem exec_of_accumulateOp {i : Instr} {f} (hf : AccumulateOp i.mnemonic f) (s : State) :
    ∃ v b, operandByte i.operand s = some (v, b) ∧ exec i s = .next (accumulate f (v, b) s) := by
  obtain ⟨F, hF, he⟩ := exec_meaning i
  obtain ⟨v, hv⟩ := reads_of_meaning hF hf.accessClass
  exact ⟨_, _, hv s, by rw [he, accumulate_of_meaning hF hf (hv s)]⟩

/-- An instruction that tests an operand byte, from its mnemonic alone. -/
theorem exec_of_testOp {i : Instr} {r f} (hf : TestOp i.mnemonic r f) (s : State) :
    ∃ v b, operandByte i.operand s = some (v, b) ∧ exec i s = .next (test (f (r s)) (v, b) s) := by
  obtain ⟨F, hF, he⟩ := exec_meaning i
  obtain ⟨v, hv⟩ := reads_of_meaning hF hf.accessClass
  exact ⟨_, _, hv s, by rw [he, test_of_meaning hF hf (hv s)]⟩

/-- A read-modify-write instruction, from its mnemonic alone. -/
theorem exec_of_modifyOp {i : Instr} {f} (hf : ModifyOp i.mnemonic f) (s : State) :
    (∃ w, i.operand = .memory w ∧ exec i s = .next (modifyByte f w s)) ∨
      (ShiftOp i.mnemonic f ∧ i.operand = .accumulator ∧ exec i s = .next (modifyA f s)) := by
  obtain ⟨F, hF, he⟩ := exec_meaning i
  rcases modify_of_meaning hF hf with ⟨w, ho, rfl⟩ | ⟨hs, ho, rfl⟩
  · exact .inl ⟨w, ho, he s⟩
  · exact .inr ⟨hs, ho, he s⟩

/-! ### What a status computation leaves in each flag -/

theorem flagsKeptBut_mono {fs gs : List Flag} (hsub : fs ⊆ gs) {p q : Byte} (h : flagsKeptBut fs p q) :
    flagsKeptBut gs p q :=
  fun f hf => h f fun hc => hf (hsub hc)

theorem nzOf_setNZ (r p : Byte) : nzOf r (setNZ r p) :=
  ⟨(getFlag_setNZ_zero r p).trans (zero_eq_decide r), (getFlag_setNZ_negative r p).trans (BitVec.msb_eq_decide r)⟩

/-- `SetNZ` of a result (00_scope R13). -/
theorem setNZ_status (r p : Byte) : nzOf r (setNZ r p) ∧ flagsKeptBut [.zero, .negative] p (setNZ r p) :=
  ⟨nzOf_setNZ r p, flagsKeptBut_setNZ r (by decide) (by decide) (flagsKeptBut_refl _ p)⟩

/-- The status after a sum or difference `r` with overflow `v` and carry out `c` (41_arithmetic R101, R102). -/
theorem sum_status (r p : Byte) (v c : Bool) {q : Byte}
    (hq : q = setNZ r (setFlag .overflow v (setFlag .carry c p))) :
    getFlag .carry q = c ∧ getFlag .overflow q = v ∧ nzOf r q ∧
      flagsKeptBut [.carry, .overflow, .zero, .negative] p q := by
  subst hq
  refine ⟨?_, ?_, nzOf_setNZ r _, ?_⟩
  · simp [getFlag_setNZ, getFlag_setFlag]
  · simp [getFlag_setNZ]
  · exact flagsKeptBut_setNZ r (by decide) (by decide)
      (flagsKeptBut_setFlag v (by decide) (flagsKeptBut_setFlag c (by decide) (flagsKeptBut_refl _ p)))

/-- The status after a compare (41_arithmetic R103). -/
theorem compareByte_status (r v p : Byte) :
    getFlag .carry (compareByte r v p) = decide (r.toNat ≥ v.toNat) ∧
      getFlag .zero (compareByte r v p) = decide (r = v) ∧
      getFlag .negative (compareByte r v p) = decide (128 ≤ (r.toNat + 256 - v.toNat) % 256) ∧
      flagsKeptBut [.carry, .zero, .negative] p (compareByte r v p) := by
  refine ⟨?_, ?_, ?_, flagsKeptBut_mono (by decide) ((compareByte_writes r v).kept p)⟩
  · simp [compareByte, getFlag_setFlag]
  · simp [compareByte, getFlag_setFlag, beq_eq_decide]
  · have hv := v.isLt
    rw [compareByte, getFlag_setFlag_same, BitVec.msb_eq_decide, BitVec.toNat_sub]
    congr 3
    omega

/-! ### Counting modulo 256 -/

theorem add_one_toNat (v : Byte) : (v + 1).toNat = (v.toNat + 1) % 256 := BitVec.toNat_add v 1

theorem sub_one_toNat (v : Byte) : (v - 1).toNat = (v.toNat + 255) % 256 := by
  rw [BitVec.toNat_sub, Nat.add_comm]
  rfl

end Sys2Proof.Machine

namespace Sys2Proof.Claims

open Sys2Proof Sys2Proof.Machine

/-- What `encodings` says of each row, row by row. -/
theorem encodings_iff_forall {m : Mnemonic} {rows : List (Byte × Mode)} :
    encodings m rows ↔ rows.Forall fun row => ∀ b c : Byte, ∃ i rest,
      decode [row.1, b, c] = .ok (i, rest) ∧ i.mnemonic = m ∧ i.mode = row.2 :=
  List.forall_iff_forall_mem.symm

theorem compares_of_testOp {m : Mnemonic} {reg : State → Byte} (hop : TestOp m reg compareByte) : compares m reg := by
  rintro i s rfl
  obtain ⟨v, b, hv, he⟩ := exec_of_testOp hop s
  exact ⟨v, b, _, hv, he, compareByte_status (reg s) v s.p⟩

/-- A read-modify-write instruction that is no shift and sets Zero and Negative of its result. -/
theorem modifies_of_modifyOp {m : Mnemonic} {f : Byte → Byte → Byte × Byte} {value : Nat → Nat} (hop : ModifyOp m f)
    (hshift : ¬ ShiftOp m f) (hvalue : ∀ v p, (f v p).1.toNat = value v.toNat)
    (hstatus : ∀ v p, (f v p).2 = setNZ (f v p).1 p) : modifies m value := by
  rintro i s rfl
  rcases exec_of_modifyOp hop s with ⟨w, ho, he⟩ | ⟨hs, -, -⟩
  · exact ⟨w, _, _, ho, he, hvalue _ _, hstatus _ s.p ▸ setNZ_status _ s.p⟩
  · exact absurd hs hshift

/-- Settles O25: `adcByte` on A and the operand byte, whatever the form. -/
theorem adcAddsWithCarry : Obligations.AdcAddsWithCarry := by
  refine ⟨encodings_iff_forall.mpr ?_, fun i s hm => ?_⟩
  · and_intros <;> exact fun _ _ => ⟨_, _, rfl, rfl, rfl⟩
  · have hop : AccumulateOp i.mnemonic adcByte := hm ▸ .adc
    obtain ⟨v, b, hv, he⟩ := exec_of_accumulateOp hop s
    obtain ⟨hr, hp⟩ := adcByte_spec s.a v s.p
    exact ⟨v, b, _, _, hv, he, hr, sum_status _ s.p _ _ hp⟩

/-- Settles O26: `sbcByte` on A and the operand byte, whatever the form. -/
theorem sbcSubtractsWithBorrow : Obligations.SbcSubtractsWithBorrow := by
  refine ⟨encodings_iff_forall.mpr ?_, fun i s hm => ?_⟩
  · and_intros <;> exact fun _ _ => ⟨_, _, rfl, rfl, rfl⟩
  · have hop : AccumulateOp i.mnemonic sbcByte := hm ▸ .sbc
    obtain ⟨v, b, hv, he⟩ := exec_of_accumulateOp hop s
    obtain ⟨hr, hp⟩ := sbcByte_spec s.a v s.p
    exact ⟨v, b, _, _, hv, he, hr, sum_status _ s.p _ _ hp⟩

/-- Settles O28: one computation for the three registers. -/
theorem comparesSetFlagsOnly : Obligations.ComparesSetFlagsOnly := by
  refine ⟨⟨encodings_iff_forall.mpr ?_, compares_of_testOp .cmp⟩,
    ⟨encodings_iff_forall.mpr ?_, compares_of_testOp .cpx⟩, ⟨encodings_iff_forall.mpr ?_, compares_of_testOp .cpy⟩⟩
  all_goals and_intros <;> exact fun _ _ => ⟨_, _, rfl, rfl, rfl⟩

/-- Settles O29: both set Zero and Negative of the byte they write back, and neither is a shift. -/
theorem incAndDecModifyMemory : Obligations.IncAndDecModifyMemory := by
  refine ⟨⟨encodings_iff_forall.mpr ?_, modifies_of_modifyOp .inc nofun (fun v _ => add_one_toNat v) fun _ _ => rfl⟩,
    ⟨encodings_iff_forall.mpr ?_, modifies_of_modifyOp .dec nofun (fun v _ => sub_one_toNat v) fun _ _ => rfl⟩⟩
  all_goals and_intros <;> exact fun _ _ => ⟨_, _, rfl, rfl, rfl⟩

/-- Settles O30: the registers count as memory bytes do under INC and DEC. -/
theorem indexRegistersCountModulo256 : Obligations.IndexRegistersCountModulo256 := by
  refine ⟨?_, ?_, ?_, ?_, fun s =>
    ⟨⟨_, _, rfl, add_one_toNat s.x, setNZ_status _ s.p⟩, ⟨_, _, rfl, add_one_toNat s.y, setNZ_status _ s.p⟩,
      ⟨_, _, rfl, sub_one_toNat s.x, setNZ_status _ s.p⟩, ⟨_, _, rfl, sub_one_toNat s.y, setNZ_status _ s.p⟩⟩⟩
  all_goals exact encodings_iff_forall.mpr fun _ _ => ⟨_, _, rfl, rfl, rfl⟩

end Sys2Proof.Claims

/-!
Logic and shifts (42_logical_shift R130 to R137): what the BIT test and a shift leave in each flag, and what each form
leaves of its result, bit by bit or as a number.
-/

namespace Sys2Proof.Machine

open Sys2Proof Sys2Proof.Claims

/-- The status after BIT (42_logical_shift R133). -/
theorem bitTestByte_status (a v p : Byte) :
    (getFlag .zero (bitTestByte a v p) = true ↔ ∀ k < 8, ¬ (a.getLsbD k = true ∧ v.getLsbD k = true)) ∧
      getFlag .overflow (bitTestByte a v p) = v.getLsbD 6 ∧ getFlag .negative (bitTestByte a v p) = v.getLsbD 7 ∧
      flagsKeptBut [.zero, .overflow, .negative] p (bitTestByte a v p) := by
  refine ⟨?_, ?_, getFlag_setFlag_same .negative _ _, flagsKeptBut_mono (by decide) ((bitTestByte_writes a v).kept p)⟩
  · have hz : getFlag .zero (bitTestByte a v p) = ((a &&& v) == 0x00) := by simp [bitTestByte, getFlag_setFlag]
    rw [hz, beq_iff_eq, BitVec.eq_of_getLsbD_eq_iff]
    simp
  · simp [bitTestByte, getFlag_setFlag]

/-- The status after a shift or rotate to `r` that puts `c` in Carry (42_logical_shift R134 to R137). -/
theorem shift_status (r p : Byte) (c : Bool) {q : Byte} (hq : q = setNZ r (setFlag .carry c p)) :
    getFlag .carry q = c ∧ nzOf r q ∧ flagsKeptBut [.carry, .zero, .negative] p q := by
  subst hq
  refine ⟨?_, nzOf_setNZ r _, ?_⟩
  · simp [getFlag_setNZ]
  · exact flagsKeptBut_setNZ r (by decide) (by decide)
      (flagsKeptBut_setFlag c (by decide) (flagsKeptBut_refl _ p))

end Sys2Proof.Machine

namespace Sys2Proof.Claims

open Sys2Proof Sys2Proof.Machine

/-- An operation on A and the operand byte that sets Zero and Negative of its result, by what it does to each bit. -/
theorem bitwise_of_accumulateOp {m : Mnemonic} {f : Byte → Byte → Byte → Byte × Byte} {op : Bool → Bool → Bool}
    (hop : AccumulateOp m f) (hbit : ∀ a v p k, (f a v p).1.getLsbD k = op (a.getLsbD k) (v.getLsbD k))
    (hstatus : ∀ a v p, (f a v p).2 = setNZ (f a v p).1 p) : bitwise m op := by
  rintro i s rfl
  obtain ⟨v, b, hv, he⟩ := exec_of_accumulateOp hop s
  have hp := setNZ_status (f s.a v s.p).1 s.p
  rw [← hstatus] at hp
  exact ⟨v, b, _, _, hv, he, fun k _ => hbit s.a v s.p k, hp⟩

/-- A shift or rotate, by its result and its carry out as functions of numbers: A and memory alike. -/
theorem shifts_of_shiftOp {m : Mnemonic} {f : Byte → Byte → Byte × Byte} {value : Nat → Nat → Nat} {out : Nat → Bool}
    (hop : ShiftOp m f) (hvalue : ∀ v p, (f v p).1.toNat = value v.toNat (carryNat p))
    (hstatus : ∀ v p, (f v p).2 = setNZ (f v p).1 (setFlag .carry (out v.toNat) p)) : shifts m value out := by
  rintro i s rfl
  rcases exec_of_modifyOp (.shift hop) s with ⟨w, ho, he⟩ | ⟨-, ho, he⟩
  · obtain ⟨hc, hnz, hkept⟩ := shift_status _ s.p _ (hstatus (loadByte w s).1 s.p)
    exact ⟨_, _, _, hvalue _ s.p, hc, hnz, hkept, .inr ⟨w, ho, rfl, he⟩⟩
  · obtain ⟨hc, hnz, hkept⟩ := shift_status _ s.p _ (hstatus s.a s.p)
    exact ⟨_, _, _, hvalue _ s.p, hc, hnz, hkept, .inl ⟨ho, rfl, he⟩⟩

/-- Settles O31: each computes its result bit by bit and sets Zero and Negative of it. -/
theorem logicalOperationsAreBitwise : Obligations.LogicalOperationsAreBitwise := by
  refine ⟨⟨encodings_iff_forall.mpr ?_,
      bitwise_of_accumulateOp .and (fun _ _ _ _ => BitVec.getLsbD_and) fun _ _ _ => rfl⟩,
    ⟨encodings_iff_forall.mpr ?_,
      bitwise_of_accumulateOp .ora (fun _ _ _ _ => BitVec.getLsbD_or) fun _ _ _ => rfl⟩,
    ⟨encodings_iff_forall.mpr ?_,
      bitwise_of_accumulateOp .eor (fun _ _ _ _ => BitVec.getLsbD_xor) fun _ _ _ => rfl⟩⟩
  all_goals and_intros <;> exact fun _ _ => ⟨_, _, rfl, rfl, rfl⟩

/-- Settles O32: `bitTestByte` on A and the operand byte, in both forms. -/
theorem bitTestsTheOperand : Obligations.BitTestsTheOperand := by
  refine ⟨encodings_iff_forall.mpr ?_, fun i s hm => ?_⟩
  · and_intros <;> exact fun _ _ => ⟨_, _, rfl, rfl, rfl⟩
  · have hop : TestOp i.mnemonic State.a bitTestByte := hm ▸ .bit
    obtain ⟨v, b, hv, he⟩ := exec_of_testOp hop s
    exact ⟨v, b, _, hv, he, bitTestByte_status s.a v s.p⟩

/-- Settles O33: a left shift puts bit 7 in Carry, a right shift bit 0, read here as arithmetic on the byte. -/
theorem shiftsAndRotatesThroughCarry : Obligations.ShiftsAndRotatesThroughCarry := by
  refine ⟨⟨encodings_iff_forall.mpr ?_, shifts_of_shiftOp .asl aslByte_value fun v _ => getLsbD_seven v ▸ rfl⟩,
    ⟨encodings_iff_forall.mpr ?_, shifts_of_shiftOp .lsr lsrByte_value fun v _ => getLsbD_zero_eq v ▸ rfl⟩,
    ⟨encodings_iff_forall.mpr ?_, shifts_of_shiftOp .rol rolByte_value fun v _ => getLsbD_seven v ▸ rfl⟩,
    ⟨encodings_iff_forall.mpr ?_, shifts_of_shiftOp .ror rorByte_value fun v _ => getLsbD_zero_eq v ▸ rfl⟩⟩
  all_goals and_intros <;> exact fun _ _ => ⟨_, _, rfl, rfl, rfl⟩

end Sys2Proof.Claims

/-!
Data movement (43_data_movement R160 to R171): the next state of a load or a store from its mnemonic, and what a store
leaves at its effective address.
-/

namespace Sys2Proof.Machine

open Sys2Proof Sys2Proof.Claims

/-- The loads, and the operation of each on its operand byte. -/
inductive LoadOp : Mnemonic → (Byte × Bus → State → State) → Prop where
  | lda : LoadOp .LDA loadA
  | ldx : LoadOp .LDX loadX
  | ldy : LoadOp .LDY loadY

theorem StoreOp.accessClass {m r} (h : StoreOp m r) : m.accessClass = .write := by cases h <;> rfl

/-- The next state of a load. -/
theorem load_of_meaning {m o F load} (h : Meaning m o F) (hf : LoadOp m load) {s : State} {v : Byte × Bus}
    (hv : operandByte o s = some v) : F s = load v s := by
  cases h with
  | loadA hw | loadX hw | loadY hw =>
    obtain rfl := Option.some.inj ((hw s).symm.trans hv)
    cases hf
    rfl
  | accumulate hg => cases hf <;> cases hg
  | test hg => cases hf <;> cases hg
  | modify hg =>
    have hm := hg.accessClass
    cases hf <;> cases hm
  | store hr => cases hf <;> cases hr
  | modifyA | toA | toX | toY | flag | branch | none => cases hv
  | _ => cases hf

/-- A store writes its register to a byte of memory (30_encoding R78). -/
theorem store_of_meaning {m o F r} (h : Meaning m o F) (hr : StoreOp m r) :
    ∃ w, o = .memory w ∧ F = fun s => storeByte w (r s) s := by
  have hm := hr.accessClass
  cases h with
  | store hg w =>
    refine ⟨w, rfl, ?_⟩
    cases hr <;> cases hg <;> rfl
  | accumulate hg => cases hg.accessClass.symm.trans hm
  | test hg => cases hg.accessClass.symm.trans hm
  | modify hg => cases hg.accessClass.symm.trans hm
  | modifyA hg | toA hg | toX hg | toY hg | flag hg => cases hg <;> cases hm
  | branch hb => cases hb.symm.trans hm
  | none hn => rcases List.mem_pair.mp hn with rfl | rfl <;> cases hm
  | _ => cases hm

/-- The operand byte of a read-class instruction (30_encoding R78). -/
theorem operandByte_of_read {i : Instr} (h : i.mnemonic.accessClass = .read) (s : State) :
    ∃ v b, operandByte i.operand s = some (v, b) := by
  obtain ⟨F, hF, -⟩ := exec_meaning i
  obtain ⟨v, hv⟩ := reads_of_meaning hF h
  exact ⟨_, _, hv s⟩

/-- A load, from its mnemonic and its operand byte. -/
theorem exec_of_loadOp {i : Instr} {load} (hf : LoadOp i.mnemonic load) {s : State} {v : Byte × Bus}
    (hv : operandByte i.operand s = some v) : exec i s = .next (load v s) := by
  obtain ⟨F, hF, he⟩ := exec_meaning i
  rw [he, load_of_meaning hF hf hv]

/-- A store, from its mnemonic alone. -/
theorem exec_of_storeOp {i : Instr} {r} (hr : StoreOp i.mnemonic r) (s : State) :
    ∃ w, i.operand = .memory w ∧ exec i s = .next (storeByte w (r s) s) := by
  obtain ⟨F, hF, he⟩ := exec_meaning i
  obtain ⟨w, ho, rfl⟩ := store_of_meaning hF hr
  exact ⟨w, ho, he s⟩

/-- The byte a store leaves, where RAM serves the effective address: the resolver's reads keep the bus well formed and
change no RAM binding. -/
theorem storeByte_peek_same {s : State} {w : MemOperand} (v : Byte) (hinv : s.inv = true)
    (hram : s.bus.ramAt (effectiveAddr w s).1 = true) : (storeByte w v s).bus.peek (effectiveAddr w s).1 = v := by
  obtain ⟨-, hf, hw⟩ := s.inv_iff.mp hinv
  have hbus := effectiveAddr_readsOnly w s
  exact Bus.peek_write_same v ((hbus.ram _).trans hram) (hbus.wf hf hw)

end Sys2Proof.Machine

namespace Sys2Proof.Claims

open Sys2Proof Sys2Proof.Machine

theorem stores_of_storeOp {m : Mnemonic} {reg : State → Byte} (hop : StoreOp m reg) : stores m reg := by
  rintro i s rfl
  exact exec_of_storeOp hop s

/-- Settles O20: the byte stored is the register's, and RAM gives back what is written to it. -/
theorem storedRegisterIsReadBack : Obligations.StoredRegisterIsReadBack := by
  intro i s w reg hinv ho hreg hram
  obtain ⟨r, hop, rfl⟩ : ∃ r, StoreOp i.mnemonic r ∧ reg = r s := by
    rcases hreg with ⟨hm, h⟩ | ⟨hm, h⟩ | ⟨hm, h⟩
    · exact ⟨_, hm ▸ .sta, h⟩
    · exact ⟨_, hm ▸ .stx, h⟩
    · exact ⟨_, hm ▸ .sty, h⟩
  obtain ⟨w', ho', he⟩ := exec_of_storeOp hop s
  obtain rfl := Operand.memory.inj (ho.symm.trans ho')
  exact ⟨_, he, storeByte_peek_same (r s) hinv hram⟩

/-- Settles O34: one operand byte whatever the form, and the same status whichever the register. -/
theorem loadsReadTheOperand : Obligations.LoadsReadTheOperand := by
  refine ⟨?_, fun i s hm => ?_⟩
  · refine ⟨encodings_iff_forall.mpr ?_, encodings_iff_forall.mpr ?_, encodings_iff_forall.mpr ?_⟩
    all_goals and_intros <;> exact fun _ _ => ⟨_, _, rfl, rfl, rfl⟩
  · have hread : ∀ m ∈ [Mnemonic.LDA, .LDX, .LDY], m.accessClass = .read := by decide
    obtain ⟨v, b, hv⟩ := operandByte_of_read (hread _ hm) s
    obtain ⟨hnz, hkept⟩ := setNZ_status v s.p
    exact ⟨v, b, setNZ v s.p, hv, hnz, hkept, fun h => exec_of_loadOp (load := loadA) (h ▸ .lda) hv,
      fun h => exec_of_loadOp (load := loadX) (h ▸ .ldx) hv, fun h => exec_of_loadOp (load := loadY) (h ▸ .ldy) hv⟩

/-- Settles O35: one write of the register, whatever the form. -/
theorem storesWriteTheRegister : Obligations.StoresWriteTheRegister := by
  refine ⟨⟨encodings_iff_forall.mpr ?_, stores_of_storeOp .sta⟩,
    ⟨encodings_iff_forall.mpr ?_, stores_of_storeOp .stx⟩, ⟨encodings_iff_forall.mpr ?_, stores_of_storeOp .sty⟩⟩
  all_goals and_intros <;> exact fun _ _ => ⟨_, _, rfl, rfl, rfl⟩

/-- Settles O36: Zero and Negative are those of the byte copied, but for TXS, which keeps P. -/
theorem transfersCopyRegisters : Obligations.TransfersCopyRegisters := by
  refine ⟨?_, fun s =>
    ⟨⟨_, rfl, setNZ_status s.a s.p⟩, ⟨_, rfl, setNZ_status s.a s.p⟩, ⟨_, rfl, setNZ_status s.x s.p⟩,
      ⟨_, rfl, setNZ_status s.y s.p⟩, ⟨_, rfl, setNZ_status s.sp s.p⟩, rfl⟩⟩
  and_intros <;> exact encodings_iff_forall.mpr fun _ _ => ⟨_, _, rfl, rfl, rfl⟩

end Sys2Proof.Claims

/-!
Flag instructions (44_flag_ops R190 to R196): each is one `State.withFlag`.
-/

namespace Sys2Proof.Claims

open Sys2Proof Sys2Proof.Machine

theorem writesFlag_of_exec {i : Instr} {f : Flag} {v : Bool} (he : ∀ s, exec i s = .next (s.withFlag f v)) :
    writesFlag i f v := fun s =>
  ⟨setFlag f v s.p, he s, getFlag_setFlag_same f v s.p, (writes_setFlag f v).kept s.p⟩

/-- Settles O37: seven uses of `State.withFlag`, which differ in the flag and the value. -/
theorem flagInstructionsWriteOneBit : Obligations.FlagInstructionsWriteOneBit := by
  refine ⟨?_, writesFlag_of_exec fun _ => rfl, writesFlag_of_exec fun _ => rfl, writesFlag_of_exec fun _ => rfl,
    writesFlag_of_exec fun _ => rfl, writesFlag_of_exec fun _ => rfl, writesFlag_of_exec fun _ => rfl,
    writesFlag_of_exec fun _ => rfl⟩
  and_intros <;> exact encodings_iff_forall.mpr fun _ _ => ⟨_, _, rfl, rfl, rfl⟩

end Sys2Proof.Claims

/-!
Control flow (45_control_flow R210 to R221): a branch target as a number, the reads of an indirect jump, and the two
stack slots of a call and of its return.
-/

namespace Sys2Proof.Machine

/-- A branch target wraps at 65536, whichever the sign of the offset (D22). -/
theorem add_sext16_toNat (a : Addr) (off : Byte) :
    ((a + sext16 off).toNat : Int) = ((a.toNat : Int) + off.toInt) % 65536 := by
  have hsum : a + sext16 off = BitVec.ofInt 16 (a.toNat + off.toInt) := by
    rw [BitVec.ofInt_add, BitVec.ofInt_natCast, BitVec.ofNat_toNat, BitVec.setWidth_eq]
    rfl
  rw [hsum, BitVec.toNat_ofInt, Int.toNat_of_nonneg (by omega)]
  rfl

/-- An indirect jump: two reads, low byte first, the second in the pointer's page where the toggle keeps it there
(30_encoding R73, D7). -/
theorem indirectTarget_reads (ptr : Addr) (s : State) :
    ∃ hiAddr : Addr, ∃ lo hi : Byte, ∃ b c : Bus,
      (s.config.jmpBug = true ∧ ptr.toNat % 256 = 255 → hiAddr.toNat = ptr.toNat - 255) ∧
      (¬ (s.config.jmpBug = true ∧ ptr.toNat % 256 = 255) → hiAddr.toNat = (ptr.toNat + 1) % 65536) ∧
      s.bus.read ptr = (lo, b) ∧ b.read hiAddr = (hi, c) ∧ indirectTarget ptr s = (word16 hi lo, c) := by
  have hcond : (loByte ptr == 0xFF && s.jmpBug) = true ↔ s.config.jmpBug = true ∧ ptr.toNat % 256 = 255 := by
    rw [Bool.and_eq_true, beq_iff_eq, ← BitVec.toNat_inj, loByte_toNat, and_comm]
    rfl
  refine ⟨_, _, _, _, _, fun h => ?_, fun h => ?_, rfl, rfl, rfl⟩
  · rw [if_pos (hcond.mpr h), and_page_toNat]
    omega
  · rw [if_neg (mt hcond.mp h), BitVec.toNat_add]
    rfl

/-- Everything a call pushes: the high byte above the low byte (20_memory R48). -/
theorem pushWord_eq (w : Addr) (s : State) :
    pushWord w s =
      { s with
        bus := (s.bus.write (stackAddr s.sp) (hiByte w)).write (stackAddr (s.sp - 1)) (loByte w)
        sp := s.sp - 2 } := by
  have hsp : s.sp - 1 - 1 = s.sp - 2 := BitVec.sub_sub ..
  rw [← hsp]
  rfl

/-- Everything a return pulls: the low byte first. -/
theorem pullWord_reads (s : State) :
    ∃ lo hi : Byte, ∃ b c : Bus, s.bus.read (stackAddr (s.sp + 1)) = (lo, b) ∧
      b.read (stackAddr (s.sp + 2)) = (hi, c) ∧
      pullWord s = (word16 hi lo, { s with bus := c, sp := s.sp + 2 }) := by
  have hsp : s.sp + 1 + 1 = s.sp + 2 := BitVec.add_assoc ..
  refine ⟨_, _, _, _, rfl, rfl, ?_⟩
  rw [← hsp]
  rfl

theorem stackAddr_add_toNat (sp k : Byte) : (stackAddr (sp + k)).toNat = 0x100 + (sp.toNat + k.toNat) % 256 := by
  rw [stackAddr_toNat, BitVec.toNat_add]

/-- Two pulls take back the word that two pushes put, where RAM serves both stack slots. -/
theorem pullWord_pushWord {s : State} (w : Addr) (hhi : s.bus.ramAt (stackAddr s.sp) = true)
    (hlo : s.bus.ramAt (stackAddr (s.sp - 1)) = true) (hf : s.bus.fits = true) (hw : s.bus.wf = true) :
    pullWord (pushWord w s) = (w, { pushWord w s with sp := s.sp }) := by
  have hpushed := push_evolves (hiByte w) s
  have hfirst : pull (pushWord w s) = (loByte w, { pushWord w s with sp := s.sp - 1 }) :=
    pull_push (s := push (hiByte w) s) _ ((hpushed.ram _).trans hlo) (hpushed.wf hf hw)
  have hslots : stackAddr s.sp ≠ stackAddr (s.sp - 1) := stackAddr_ne (by bv_omega)
  have hsecond : pull { pushWord w s with sp := s.sp - 1 } = (hiByte w, { pushWord w s with sp := s.sp }) := by
    have hback : s.sp - 1 + 1 = s.sp := BitVec.sub_add_cancel ..
    have hplain := Bus.plainAt_of_ramAt hhi
    rw [pull_plain (by simpa [hback] using hplain)]
    simp only [hback, pushWord_bus]
    rw [Bus.peek_write_other _ (by simpa using hplain) hslots, Bus.peek_write_same _ hhi hw]
  simp only [pullWord, hfirst, hsecond, word16_hiByte_loByte]

end Sys2Proof.Machine

namespace Sys2Proof.Claims

open Sys2Proof Sys2Proof.Machine

/-- A branch on one flag, from what it does to a state. -/
theorem branches_of_exec {i : Byte → Instr} {f : Flag} {v : Bool}
    (he : ∀ off s, exec (i off) s = .next (branchIf (bif v then s.flag f else !s.flag f) off s)) :
    branches i f v := by
  intro off s
  have hcond : (bif v then s.flag f else !s.flag f) = decide (s.flag f = v) := by
    cases v <;> simp
  refine ⟨_, (he off s).trans (congrArg _ (branchIf_eq _ off s)), fun h => ?_, fun h => ?_⟩
  · rw [hcond, if_pos (decide_eq_true h), add_sext16_toNat]
  · rw [hcond, if_neg (by simpa using h)]

/-- Settles O38: eight uses of `branchIf`, which differ in the flag and the value. -/
theorem branchesTestOneFlag : Obligations.BranchesTestOneFlag := by
  refine ⟨?_, branches_of_exec fun _ _ => rfl, branches_of_exec fun _ _ => rfl, branches_of_exec fun _ _ => rfl,
    branches_of_exec fun _ _ => rfl, branches_of_exec fun _ _ => rfl, branches_of_exec fun _ _ => rfl,
    branches_of_exec fun _ _ => rfl, branches_of_exec fun _ _ => rfl⟩
  and_intros <;> exact encodings_iff_forall.mpr fun _ _ => ⟨_, _, rfl, rfl, rfl⟩

/-- Settles O40: the indirect form jumps to the word its two reads give. -/
theorem jmpLoadsThePc : Obligations.JmpLoadsThePc := by
  refine ⟨encodings_iff_forall.mpr ?_, fun _ _ => rfl, fun ptr s => ?_⟩
  · and_intros <;> exact fun _ _ => ⟨_, _, rfl, rfl, rfl⟩
  · obtain ⟨hiAddr, lo, hi, b, c, hbug, hnext, hlo, hhi, htarget⟩ := indirectTarget_reads ptr s
    have he : exec (.jmpInd ptr) s =
        .next { s with pc := (indirectTarget ptr s).1, bus := (indirectTarget ptr s).2 } := rfl
    exact ⟨hiAddr, _, lo, hi, b, c, hbug, hnext, hlo, hhi, word16_toNat hi lo, by rw [he, htarget]⟩

/-- Settles O43: RTS pulls the word JSR pushed, and PC - 1 + 1 is PC. -/
theorem rtsReturnsFromJsr : Obligations.RtsReturnsFromJsr := by
  intro target s hinv hhi hlo
  obtain ⟨-, hf, hw⟩ := s.inv_iff.mp hinv
  have hpull := pullWord_pushWord (s.pc - 1) hhi hlo hf hw
  refine ⟨_, _, rfl, rfl, rfl, ?_, ?_, rfl⟩
  · calc (pullWord (pushWord (s.pc - 1) s)).1 + 1
      _ = s.pc - 1 + 1 := by rw [hpull]
      _ = s.pc := BitVec.sub_add_cancel ..
  · exact congrArg (·.2.sp) hpull

/-- Settles O41: the word pushed is PC - 1. -/
theorem jsrPushesTheReturnAddress : Obligations.JsrPushesTheReturnAddress := by
  refine ⟨encodings_iff_forall.mpr fun _ _ => ⟨_, _, rfl, rfl, rfl⟩, fun target s => ?_⟩
  have hreturn : (s.pc - 1).toNat = (s.pc.toNat + 65535) % 65536 := by
    rw [BitVec.toNat_sub, Nat.add_comm]
    rfl
  have he : exec (.jsr target) s = .next { pushWord (s.pc - 1) s with pc := target } := rfl
  exact ⟨_, _, _, _, stackAddr_toNat s.sp, by rw [stackAddr_toNat, sub_one_toNat],
    by rw [← word16_toNat, word16_hiByte_loByte, hreturn], by rw [he, pushWord_eq]⟩

/-- Settles O42: PC is the word pulled plus 1. -/
theorem rtsPullsTheReturnAddress : Obligations.RtsPullsTheReturnAddress := by
  refine ⟨encodings_iff_forall.mpr fun _ _ => ⟨_, _, rfl, rfl, rfl⟩, fun s => ?_⟩
  obtain ⟨lo, hi, b, c, hlo, hhi, hpull⟩ := pullWord_reads s
  have htarget : (word16 hi lo + 1).toNat = (256 * hi.toNat + lo.toNat + 1) % 65536 := by
    rw [BitVec.toNat_add, word16_toNat]
    rfl
  have he : exec .rts s = .next { (pullWord s).2 with pc := (pullWord s).1 + 1 } := rfl
  exact ⟨_, _, _, lo, hi, b, c, stackAddr_add_toNat s.sp 1, stackAddr_add_toNat s.sp 2, hlo, hhi, htarget,
    by rw [he, hpull]⟩

end Sys2Proof.Claims

/-!
Stack and system (46_stack_system R240 to R250): the stack page under any sequence of pushes and pulls, the frame that
BRK pushes, and what RTI takes back from it.
-/

namespace Sys2Proof.Machine

open Sys2Proof Sys2Proof.Claims

/-! ### The stack page -/

theorem stackAddr_mem_page (sp : Byte) : 0x100 ≤ (stackAddr sp).toNat ∧ (stackAddr sp).toNat ≤ 0x1FF := by
  have := sp.isLt
  rw [stackAddr_toNat]
  omega

theorem ne_stackAddr {x : Addr} (h : ¬ (0x100 ≤ x.toNat ∧ x.toNat ≤ 0x1FF)) (sp : Byte) : x ≠ stackAddr sp := by
  rintro rfl
  exact h (stackAddr_mem_page sp)

theorem stackAddr_sub_toNat (sp k : Byte) :
    (stackAddr (sp - k)).toNat = 0x100 + (sp.toNat + (256 - k.toNat)) % 256 := by
  rw [stackAddr_toNat, BitVec.toNat_sub, Nat.add_comm sp.toNat]

theorem eq_stackAddr_of_mem_stackAccesses {x : Addr} (ops : List (Option Byte)) (s : State)
    (h : x ∈ stackAccesses ops s) : ∃ sp, x = stackAddr sp := by
  induction ops generalizing s with
  | nil => cases h
  | cons op ops ih =>
    cases op with
    | some v => exact (List.mem_cons.mp h).elim (⟨_, ·⟩) (ih (push v s))
    | none => exact (List.mem_cons.mp h).elim (⟨_, ·⟩) (ih (pull s).2)

/-- Pushes and pulls change no byte of memory but the accessed ones. -/
theorem runStack_keeps (ops : List (Option Byte)) (s : State) :
    memoryKeptBut (stackAccesses ops s) s.bus (runStack ops s).bus := by
  induction ops generalizing s with
  | nil => exact fun _ _ _ => rfl
  | cons op ops ih =>
    intro y hy hn
    cases op with
    | some v =>
      obtain ⟨hslot, hrest⟩ := not_or.mp (mt List.mem_cons.mpr hn)
      exact (ih (push v s) y (((push_evolves v s).plain y).trans hy) hrest).trans (push_peek_other v hy hslot)
    | none =>
      have hread := pull_readsOnly s
      exact (ih (pull s).2 y ((hread.plain y).trans hy) (mt (List.mem_cons_of_mem _) hn)).trans (hread.peek y hy)

theorem runStack_pushes_sp (vs : List Byte) (s : State) :
    (runStack (vs.map some) s).sp = s.sp - BitVec.ofNat 8 vs.length := by
  induction vs generalizing s with
  | nil => exact (BitVec.sub_zero _).symm
  | cons v vs ih =>
    calc (runStack (vs.map some) (push v s)).sp
      _ = s.sp - 1 - BitVec.ofNat 8 vs.length := ih (push v s)
      _ = s.sp - BitVec.ofNat 8 (vs.length + 1) := by
        rw [BitVec.sub_sub, BitVec.ofNat_add, BitVec.add_comm]
        rfl

/-! ### What is pushed, pulled and restored of P -/

/-- The status PHP and BRK push. -/
theorem pushedStatus_status (p : Byte) :
    getFlag .brk (pushedStatus p) = true ∧ getFlag .unused (pushedStatus p) = true ∧
      flagsKeptBut [.brk, .unused] p (pushedStatus p) := by
  refine ⟨getFlag_pushedStatus _ p, getFlag_pushedStatus _ p, fun f hf => ?_⟩
  obtain ⟨hb, hu⟩ : f ≠ .brk ∧ f ≠ .unused := by simpa using hf
  simp [getFlag_pushedStatus, hb, hu]

/-- The status PLP restores. -/
theorem statusFromPlp_status (v : Byte) :
    getFlag .unused (statusFromPlp v) = true ∧ flagsKeptBut [.unused] v (statusFromPlp v) := by
  refine ⟨getFlag_statusFromPlp _ v, fun f hf => ?_⟩
  have hu : f ≠ .unused := by simpa using hf
  simp [getFlag_statusFromPlp, hu]

/-- The status RTI restores (D5). -/
theorem statusFromRti_status (v : Byte) :
    getFlag .brk (statusFromRti v) = false ∧ flagsKeptBut [.brk] v (statusFromRti v) := by
  refine ⟨getFlag_statusFromRti _ v, fun f hf => ?_⟩
  have hb : f ≠ .brk := by simpa using hf
  simp [getFlag_statusFromRti, hb]

theorem pushedStatus_setFlag_brk (p : Byte) : pushedStatus (setFlag .brk true p) = pushedStatus p :=
  pushedStatus_eq (fs := [.brk]) (by decide) ((writes_setFlag .brk true).kept p)

/-! ### The trap entry -/

/-- What BRK leaves in P (46_stack_system R247, D3). -/
def breakStatus (s : State) : Byte :=
  if s.config.brkSetsI then setFlag .interruptDisable true (setFlag .brk true s.p) else setFlag .brk true s.p

/-- The bus BRK reads its vector on: PC + 1 and the status are pushed. -/
def breakFrame (s : State) : Bus :=
  ((s.bus.write (stackAddr s.sp) (hiByte (s.pc + 1))).write (stackAddr (s.sp - 1)) (loByte (s.pc + 1))).write
    (stackAddr (s.sp - 2)) (pushedStatus s.p)

theorem breakStatus_status (s : State) :
    getFlag .brk (breakStatus s) = true ∧
      getFlag .interruptDisable (breakStatus s) = (s.config.brkSetsI || getFlag .interruptDisable s.p) ∧
      flagsKeptBut [.brk, .interruptDisable] s.p (breakStatus s) := by
  refine ⟨?_, ?_, flagsKeptBut_mono ?_ (breakStatus_writes.kept s.p)⟩
  · cases hI : s.config.brkSetsI <;> simp [breakStatus, hI, getFlag_setFlag]
  · cases hI : s.config.brkSetsI <;> simp [breakStatus, hI, getFlag_setFlag]
  · cases s.config.brkSetsI <;> decide

/-- Everything the trap entry does: the frame is pushed, then the vector is read. -/
theorem takeBreak_eq_frame (s : State) :
    takeBreak s =
      { s with
        bus := ((breakFrame s).readPair 0xFFFE 0xFFFF).2
        sp := s.sp - 3
        p := breakStatus s
        pc := ((breakFrame s).readPair 0xFFFE 0xFFFF).1 } := by
  have hslot : s.sp - 1 - 1 = s.sp - 2 := BitVec.sub_sub ..
  have hsp : s.sp - 2 - 1 = s.sp - 3 := BitVec.sub_sub ..
  rw [breakFrame, ← pushedStatus_setFlag_brk, ← hsp, ← hslot, takeBreak_eq]
  rfl

theorem breakFrame_evolves (s : State) : s.bus.Evolves (breakFrame s) :=
  ((Bus.evolves_write ..).trans (Bus.evolves_write ..)).trans (Bus.evolves_write ..)

theorem breakFrame_keeps (s : State) :
    memoryKeptBut [stackAddr s.sp, stackAddr (s.sp - 1), stackAddr (s.sp - 2)] s.bus (breakFrame s) := by
  intro y hy hn
  obtain ⟨hhi, hlo, hst⟩ : y ≠ stackAddr s.sp ∧ y ≠ stackAddr (s.sp - 1) ∧ y ≠ stackAddr (s.sp - 2) := by
    simpa using hn
  rw [breakFrame, Bus.peek_write_other _ (by simpa using hy) hst, Bus.peek_write_other _ (by simpa using hy) hlo,
    Bus.peek_write_other _ hy hhi]

/-- The vector lies outside the stack page, so the frame does not overwrite it. -/
theorem breakFrame_vector {s : State} (hlo : s.bus.plainAt 0xFFFE = true) (hhi : s.bus.plainAt 0xFFFF = true) :
    (breakFrame s).readPair 0xFFFE 0xFFFF = (word16 (s.bus.peek 0xFFFF) (s.bus.peek 0xFFFE), breakFrame s) := by
  have hkept {x : Addr} (hx : s.bus.plainAt x = true) (hpage : ¬ (0x100 ≤ x.toNat ∧ x.toNat ≤ 0x1FF)) :
      (breakFrame s).peek x = s.bus.peek x :=
    breakFrame_keeps s x hx (by simp [ne_stackAddr hpage])
  have hplain := (breakFrame_evolves s).plain
  refine Prod.ext ?_ (Bus.readPair_plain ((hplain _).trans hlo) ((hplain _).trans hhi))
  rw [Bus.readPair_word _ ((hplain _).trans hlo), hkept hlo (by decide), hkept hhi (by decide)]

/-- The frame where RAM serves its three slots. -/
theorem breakFrame_peek {s : State} (hinv : s.inv = true) (hhi : s.bus.ramAt (stackAddr s.sp) = true)
    (hlo : s.bus.ramAt (stackAddr (s.sp - 1)) = true) (hst : s.bus.ramAt (stackAddr (s.sp - 2)) = true) :
    (breakFrame s).peek (stackAddr s.sp) = hiByte (s.pc + 1) ∧
      (breakFrame s).peek (stackAddr (s.sp - 1)) = loByte (s.pc + 1) ∧
      (breakFrame s).peek (stackAddr (s.sp - 2)) = pushedStatus s.p := by
  obtain ⟨-, hf, hw⟩ := s.inv_iff.mp hinv
  have hw1 := Bus.wf_write (stackAddr s.sp) (hiByte (s.pc + 1)) hf hw
  have hw2 := Bus.wf_write (stackAddr (s.sp - 1)) (loByte (s.pc + 1)) (by simpa using hf) hw1
  have hi_lo : stackAddr s.sp ≠ stackAddr (s.sp - 1) := stackAddr_ne (by bv_omega)
  have hi_st : stackAddr s.sp ≠ stackAddr (s.sp - 2) := stackAddr_ne (by bv_omega)
  have lo_st : stackAddr (s.sp - 1) ≠ stackAddr (s.sp - 2) := stackAddr_ne (by bv_omega)
  have hhi' := Bus.plainAt_of_ramAt hhi
  have hlo' := Bus.plainAt_of_ramAt hlo
  refine ⟨?_, ?_, Bus.peek_write_same _ (by simpa using hst) hw2⟩
  · rw [breakFrame, Bus.peek_write_other _ (by simpa using hhi') hi_st,
      Bus.peek_write_other _ (by simpa using hhi') hi_lo, Bus.peek_write_same _ hhi hw]
  · rw [breakFrame, Bus.peek_write_other _ (by simpa using hlo') lo_st, Bus.peek_write_same _ (by simpa using hlo) hw1]

/-! ### The trap return -/

/-- Everything the trap return does: three reads, the status first. -/
theorem returnFromBreak_reads (s : State) :
    ∃ v lo hi : Byte, ∃ b c d : Bus, s.bus.read (stackAddr (s.sp + 1)) = (v, b) ∧
      b.read (stackAddr (s.sp + 2)) = (lo, c) ∧ c.read (stackAddr (s.sp + 3)) = (hi, d) ∧
      returnFromBreak s = { s with bus := d, sp := s.sp + 3, p := statusFromRti v, pc := word16 hi lo } := by
  have hlo_slot : s.sp + 1 + 1 = s.sp + 2 := BitVec.add_assoc ..
  have hhi_slot : s.sp + 1 + 2 = s.sp + 3 := BitVec.add_assoc ..
  obtain ⟨lo, hi, c, d, hlo, hhi, hword⟩ := pullWord_reads (pull s).2
  rw [pull_sp, hlo_slot] at hlo
  rw [pull_sp, hhi_slot] at hhi hword
  refine ⟨_, lo, hi, _, c, d, rfl, hlo, hhi, ?_⟩
  rw [returnFromBreak_eq, hword]
  rfl

/-- The trap return where memory serves the three slots. -/
theorem returnFromBreak_plain {s : State} (hst : s.bus.plainAt (stackAddr (s.sp + 1)) = true)
    (hlo : s.bus.plainAt (stackAddr (s.sp + 2)) = true) (hhi : s.bus.plainAt (stackAddr (s.sp + 3)) = true) :
    returnFromBreak s =
      { s with
        sp := s.sp + 3
        p := statusFromRti (s.bus.peek (stackAddr (s.sp + 1)))
        pc := word16 (s.bus.peek (stackAddr (s.sp + 3))) (s.bus.peek (stackAddr (s.sp + 2))) } := by
  have read_eq {x : Addr} (hx : s.bus.plainAt x = true) : s.bus.read x = (s.bus.peek x, s.bus) :=
    Prod.ext rfl (Bus.read_plain hx)
  obtain ⟨v, lo, hi, b, c, d, hv, hl, hh, heq⟩ := returnFromBreak_reads s
  obtain ⟨rfl, rfl⟩ := Prod.mk.inj ((read_eq hst).symm.trans hv)
  obtain ⟨rfl, rfl⟩ := Prod.mk.inj ((read_eq hlo).symm.trans hl)
  obtain ⟨rfl, rfl⟩ := Prod.mk.inj ((read_eq hhi).symm.trans hh)
  exact heq

/-- The trap return undoes the trap entry, where RAM serves the frame and memory the vector. -/
theorem returnFromBreak_takeBreak {s : State} (hinv : s.inv = true) (hhi : s.bus.ramAt (stackAddr s.sp) = true)
    (hlo : s.bus.ramAt (stackAddr (s.sp - 1)) = true) (hst : s.bus.ramAt (stackAddr (s.sp - 2)) = true)
    (hvlo : s.bus.plainAt 0xFFFE = true) (hvhi : s.bus.plainAt 0xFFFF = true) :
    returnFromBreak (takeBreak s) =
      { s with bus := breakFrame s, p := statusFromRti (pushedStatus s.p), pc := s.pc + 1 } := by
  obtain ⟨peek_hi, peek_lo, peek_st⟩ := breakFrame_peek hinv hhi hlo hst
  have hplain {x : Addr} (hx : s.bus.ramAt x = true) : (breakFrame s).plainAt x = true :=
    ((breakFrame_evolves s).plain x).trans (Bus.plainAt_of_ramAt hx)
  have hst_slot : s.sp - 3 + 1 = s.sp - 2 := by bv_omega
  have hlo_slot : s.sp - 3 + 2 = s.sp - 1 := by bv_omega
  have hhi_slot : s.sp - 3 + 3 = s.sp := BitVec.sub_add_cancel ..
  rw [takeBreak_eq_frame, breakFrame_vector hvlo hvhi, returnFromBreak_plain]
  · simp only [hst_slot, hlo_slot, hhi_slot, peek_hi, peek_lo, peek_st, word16_hiByte_loByte]
  · exact hst_slot ▸ hplain hst
  · exact hlo_slot ▸ hplain hlo
  · exact hhi_slot.symm ▸ hplain hhi

end Sys2Proof.Machine

namespace Sys2Proof.Claims

open Sys2Proof Sys2Proof.Machine

/-- Settles O45: every accessed address is a stack address, and 256 decrements bring SP back. -/
theorem stackNeverLeavesPageOne : Obligations.StackNeverLeavesPageOne := by
  refine ⟨fun ops s => ⟨fun x hx => ?_, fun x hplain hpage => ?_⟩, fun vs s hlen => ?_⟩
  · obtain ⟨sp, rfl⟩ := eq_stackAddr_of_mem_stackAccesses ops s hx
    exact stackAddr_mem_page sp
  · refine runStack_keeps ops s x hplain fun hx => ?_
    obtain ⟨sp, hsp⟩ := eq_stackAddr_of_mem_stackAccesses ops s hx
    exact ne_stackAddr hpage sp hsp
  · rw [runStack_pushes_sp, hlen]
    exact congrArg stackAddr (BitVec.sub_zero s.sp)

/-- Settles O48: the frame BRK pushes, the status it leaves, and the vector read on the bus the pushes left. -/
theorem brkEntersTheHandler : Obligations.BrkEntersTheHandler := by
  refine ⟨encodings_iff_forall.mpr fun _ _ => ⟨_, _, rfl, rfl, rfl⟩, fun s => ?_⟩
  obtain ⟨st_brk, st_unused, st_kept⟩ := pushedStatus_status s.p
  obtain ⟨q_brk, q_irq, q_kept⟩ := breakStatus_status s
  have hreturn : 256 * (hiByte (s.pc + 1)).toNat + (loByte (s.pc + 1)).toNat = (s.pc.toNat + 1) % 65536 := by
    rw [← word16_toNat, word16_hiByte_loByte, BitVec.toNat_add]
    rfl
  exact ⟨_, _, _, _, _, _, _, _, _, _, _, _, stackAddr_toNat s.sp, stackAddr_sub_toNat s.sp 1,
    stackAddr_sub_toNat s.sp 2, hreturn, st_brk, st_unused, st_kept, q_brk, q_irq, q_kept, rfl, rfl, word16_toNat _ _,
    congrArg Host.Outcome.next (takeBreak_eq_frame s)⟩

/-- Settles O50: RTI finds the frame BRK pushed, status first, and the word it pulls is PC + 1. -/
theorem rtiReturnsFromBrk : Obligations.RtiReturnsFromBrk := by
  intro s hinv hhi hlo hst hvlo hvhi
  have hback := returnFromBreak_takeBreak hinv hhi hlo hst hvlo hvhi
  obtain ⟨-, pushed_unused, pushed_kept⟩ := pushedStatus_status s.p
  obtain ⟨rti_brk, rti_kept⟩ := statusFromRti_status (pushedStatus s.p)
  refine ⟨takeBreak s, _, rfl, ?_, congrArg Host.Outcome.next hback, rfl, rfl, rti_brk,
    (rti_kept .unused (by decide)).trans pushed_unused, fun f hf => ?_, rfl, rfl, rfl⟩
  · rw [takeBreak_eq_frame, breakFrame_vector hvlo hvhi]
  · exact (flagsKeptBut_mono (by decide) rti_kept f hf).trans (pushed_kept f hf)

/-- Settles O44: the stack address as a number, for SP before a push and after a pull's increment. -/
theorem pushAndPullUseTheStackPage : Obligations.PushAndPullUseTheStackPage := fun s =>
  ⟨fun _ => ⟨_, _, stackAddr_toNat s.sp, sub_one_toNat s.sp, rfl⟩,
    _, _, stackAddr_add_toNat s.sp 1, add_one_toNat s.sp, rfl, (pull_readsOnly s).peek⟩

/-- Settles O46: PHA is a push of A, and PLA a pull with `SetNZ` of the byte. -/
theorem phaAndPlaMoveTheAccumulator : Obligations.PhaAndPlaMoveTheAccumulator := by
  refine ⟨encodings_iff_forall.mpr fun _ _ => ⟨_, _, rfl, rfl, rfl⟩,
    encodings_iff_forall.mpr fun _ _ => ⟨_, _, rfl, rfl, rfl⟩, fun s => ⟨⟨_, stackAddr_toNat s.sp, rfl⟩, ?_⟩⟩
  exact ⟨_, _, _, _, stackAddr_add_toNat s.sp 1, rfl, rfl, setNZ_status (pull s).1 s.p⟩

/-- Settles O47: PHP is a push of `pushedStatus`, and PLP a pull through `statusFromPlp`. -/
theorem phpAndPlpMoveTheStatus : Obligations.PhpAndPlpMoveTheStatus := by
  refine ⟨encodings_iff_forall.mpr fun _ _ => ⟨_, _, rfl, rfl, rfl⟩,
    encodings_iff_forall.mpr fun _ _ => ⟨_, _, rfl, rfl, rfl⟩, fun s => ⟨?_, ?_⟩⟩
  · obtain ⟨hbrk, hunused, hkept⟩ := pushedStatus_status s.p
    exact ⟨_, _, stackAddr_toNat s.sp, hbrk, hunused, hkept, rfl⟩
  · obtain ⟨hunused, hkept⟩ := statusFromPlp_status (pull s).1
    exact ⟨_, _, _, _, stackAddr_add_toNat s.sp 1, rfl, hunused, hkept, rfl⟩

/-- Settles O49: the three reads of the trap return. -/
theorem rtiReturnsFromTheHandler : Obligations.RtiReturnsFromTheHandler := by
  refine ⟨encodings_iff_forall.mpr fun _ _ => ⟨_, _, rfl, rfl, rfl⟩, fun s => ?_⟩
  obtain ⟨v, lo, hi, b, c, d, hv, hlo, hhi, heq⟩ := returnFromBreak_reads s
  obtain ⟨hbrk, hkept⟩ := statusFromRti_status v
  exact ⟨_, _, _, _, v, _, lo, hi, b, c, d, stackAddr_add_toNat s.sp 1, stackAddr_add_toNat s.sp 2,
    stackAddr_add_toNat s.sp 3, hv, hlo, hhi, hbrk, hkept, word16_toNat hi lo, congrArg Host.Outcome.next heq⟩

/-- Settles O51: NOP is the identity, and an implied instruction pays no penalty. -/
theorem nopDoesNothing : Obligations.NopDoesNothing :=
  ⟨encodings_iff_forall.mpr fun _ _ => ⟨_, _, rfl, rfl, rfl⟩, fun _ => ⟨rfl, rfl⟩⟩

/-- Settles O52: the same, whichever byte the instruction carries. -/
theorem unrecognisedOpcodesDoNothing : Obligations.UnrecognisedOpcodesDoNothing := fun _ _ => ⟨rfl, rfl⟩

end Sys2Proof.Claims

/-!
No synchronous exception (60_exceptions R270): every instruction has a meaning, and a step on a ready machine runs one.
-/

namespace Sys2Proof.Machine

/-- Neither a fault nor a refusal is an outcome of `exec`. -/
theorem exec_total (i : Instr) (s : State) : ∃ t, exec i s = .next t := by
  obtain ⟨F, -, he⟩ := exec_meaning i
  exact ⟨F s, he s⟩

end Sys2Proof.Machine

namespace Sys2Proof.Claims

open Sys2Proof Sys2Proof.Machine

/-- Settles O10: a step of a ready machine is `exec` of the instruction fetched, and `exec` is total. -/
theorem stepIsTotal : Obligations.StepIsTotal := by
  refine ⟨fun s hr hf => ?_, exec_total⟩
  rw [step_ready hr hf]
  exact exec_total (fetchInstr s).1 (fetchInstr s).2

end Sys2Proof.Claims

/-!
Reset and the checks of the host operations (70_reset_and_hazards R300 to R303, 20_memory R45).
-/

namespace Sys2Proof.Machine

/-- On an accepted configuration reset answers (R302). -/
theorem hostReset_ready {s : State} (hf : s.bus.fits = true) : hostReset s = .next (resetState s) :=
  if_neg (by simp [hf])

/-- The word reset loads into PC, where memory serves the vector (R300). -/
theorem resetState_pc_plain {s : State} (hlo : s.bus.plainAt 0xFFFC = true) :
    (resetState s).pc = word16 (s.bus.peek 0xFFFD) (s.bus.peek 0xFFFC) :=
  Bus.readPair_word 0xFFFD hlo

theorem resetState_bus_plain {s : State} (hlo : s.bus.plainAt 0xFFFC = true) (hhi : s.bus.plainAt 0xFFFD = true) :
    (resetState s).bus = s.bus :=
  Bus.readPair_plain hlo hhi

/-- Reset reads and never writes (R301). -/
theorem resetState_readsOnly (s : State) : s.bus.ReadsOnly (resetState s).bus :=
  Bus.readsOnly_readPair s.bus 0xFFFC 0xFFFD

/-- The status after reset, bit by bit (R300). -/
theorem getFlag_resetStatus (f : Flag) : getFlag f 0x24 = (f == .unused || f == .interruptDisable) := by
  cases f <;> decide

/-- Reset keeps nothing of a state but its bus and its parameters. -/
theorem resetState_congr {s t : State} (hbus : s.bus = t.bus) (hconfig : s.config = t.config) :
    resetState s = resetState t := by
  simp only [resetState, hbus, hconfig]

theorem resetState_reset : resetState State.reset = State.reset := by decide

end Sys2Proof.Machine

namespace Sys2Proof.Claims

open Sys2Proof Sys2Proof.Machine

/-- Settles O9: the two checks stand before everything else, the one for the first reset ahead of the other. -/
theorem refusedBeforeResetAndOnBadConfiguration : Obligations.RefusedBeforeResetAndOnBadConfiguration := by
  refine ⟨fun s hr => ⟨if_pos hr, fun _ => if_pos hr, fun _ _ => if_pos hr⟩,
    fun s hf => ⟨fun hr => ?_, if_pos hf, fun _ _ => if_pos hf, fun _ => if_pos hf⟩⟩
  have hreset : ¬ s.resetDone = false := by simp [hr]
  exact ⟨(if_neg hreset).trans (if_pos hf), fun _ => (if_neg hreset).trans (if_pos hf),
    fun _ _ => (if_neg hreset).trans (if_pos hf)⟩

/-- Settles O11: a fixed state, evaluated. -/
theorem resetMeetsTheInvariant : Obligations.ResetMeetsTheInvariant :=
  State.reset.inv_iff.mpr ⟨rfl, by decide, rfl⟩

/-- Settles O53: the registers are those of `resetState`, and its two reads keep the bus as any reads do. -/
theorem resetLeavesTheStatedValues : Obligations.ResetLeavesTheStatedValues := by
  intro s hf
  refine ⟨resetState s, hostReset_ready hf, rfl, rfl, rfl, rfl, rfl, getFlag_resetStatus .unused,
    getFlag_resetStatus .interruptDisable, fun f hunused hirq => ?_, rfl, (resetState_readsOnly s).shape,
    (resetState_readsOnly s).peek, fun hlo hhi => ⟨?_, resetState_bus_plain hlo hhi⟩⟩
  · exact (getFlag_resetStatus f).trans (by simp [hunused, hirq])
  · rw [resetState_pc_plain hlo, word16_toNat]

/-- Settles O54: `resetState`, its pair of reads written out. -/
theorem resetSetsTheRegisters : Obligations.ResetSetsTheRegisters := fun _ hf =>
  ⟨_, _, _, _, _, rfl, rfl, word16_toNat _ _, hostReset_ready hf⟩

/-- Settles O55: `State.reset` is its own reset, and reset reads the bus and the parameters only. -/
theorem resetStateIsAResetOfTheDefaultPlatform : Obligations.ResetStateIsAResetOfTheDefaultPlatform := by
  intro s hbus hconfig
  have hfits : s.bus.fits = true := hbus ▸ (by decide : State.defaultBus.fits = true)
  rw [hostReset_ready hfits, resetState_congr (t := State.reset) hbus hconfig, resetState_reset]

end Sys2Proof.Claims

/-!
The host's load (70_reset_and_hazards R306): what it makes of each byte of memory.
-/

namespace Sys2Proof.Machine

/-- On an accepted configuration a load answers. -/
theorem hostLoad_ready {s : State} (start : Addr) (bytes : List Byte) (hf : s.bus.fits = true) :
    hostLoad start bytes s = .next (!bytes.isEmpty, { s with bus := loadBytes start.toNat bytes s.bus }) :=
  if_neg (by simp [hf])

theorem loadBytes_cons {n : Nat} (v : Byte) (vs : List Byte) (b : Bus) (hn : n ≤ 0xFFFF) :
    loadBytes n (v :: vs) b = loadBytes (n + 1) vs (b.write (BitVec.ofNat 16 n) v) :=
  if_neg (Nat.not_lt.mpr hn)

/-- A byte past 0xFFFF is dropped, and all that follow it. -/
theorem loadBytes_past {n : Nat} (vs : List Byte) (b : Bus) (hn : 0xFFFF < n) : loadBytes n vs b = b := by
  cases vs with
  | nil => rfl
  | cons v vs => exact if_pos hn

theorem eq_ofNat_iff {x : Addr} {n : Nat} (hn : n ≤ 0xFFFF) : x = BitVec.ofNat 16 n ↔ x.toNat = n := by
  rw [← BitVec.toNat_inj, BitVec.toNat_ofNat, Nat.mod_eq_of_lt (by omega)]

/-- A load keeps every byte of memory that RAM does not serve or that lies outside its range. -/
theorem loadBytes_peek_kept {x : Addr} {n : Nat} {vs : List Byte} {b : Bus} (hplain : b.plainAt x = true)
    (h : b.ramAt x = true → x.toNat < n ∨ n + vs.length ≤ x.toNat) : (loadBytes n vs b).peek x = b.peek x := by
  induction vs generalizing n b with
  | nil => rfl
  | cons v vs ih =>
    by_cases hn : 0xFFFF < n
    · rw [loadBytes_past _ b hn]
    · rw [List.length_cons] at h
      have hwrite : (b.write (BitVec.ofNat 16 n) v).peek x = b.peek x := by
        cases hram : b.ramAt x with
        | false => exact Bus.peek_write_not_ram _ v hplain hram
        | true =>
          refine Bus.peek_write_other v hplain fun hx => ?_
          have hout := h hram
          have hat := (eq_ofNat_iff (by omega)).mp hx
          omega
      rw [loadBytes_cons v vs b (by omega), ih (by simpa using hplain), hwrite]
      intro hram
      have hout := h (by simpa using hram)
      omega

/-- A byte of the load reads back where RAM serves its address. -/
theorem loadBytes_peek_loaded {x : Addr} {n : Nat} {vs : List Byte} {v : Byte} {b : Bus} (hf : b.fits = true)
    (hw : b.wf = true) (hram : b.ramAt x = true) (hx : n ≤ x.toNat) (hv : vs[x.toNat - n]? = some v) :
    (loadBytes n vs b).peek x = v := by
  induction vs generalizing n b with
  | nil => simp at hv
  | cons u vs ih =>
    have hn : n ≤ 0xFFFF := by omega
    have hwrite := Bus.evolves_write b (BitVec.ofNat 16 n) u
    rw [loadBytes_cons u vs b hn]
    obtain heq | hlt := Nat.eq_or_lt_of_le hx
    · obtain rfl : u = v := by simpa [heq] using hv
      obtain rfl := (eq_ofNat_iff hn).mpr heq.symm
      rw [loadBytes_peek_kept ((hwrite.plain _).trans (Bus.plainAt_of_ramAt hram)) fun _ => .inl (by omega),
        Bus.peek_write_same u hram hw]
    · have hidx : x.toNat - n = x.toNat - (n + 1) + 1 := by omega
      rw [hidx, List.getElem?_cons_succ] at hv
      exact ih (hwrite.fits.trans hf) (hwrite.wf hf hw) ((hwrite.ram x).trans hram) hlt hv

end Sys2Proof.Machine

namespace Sys2Proof.Claims

open Sys2Proof Sys2Proof.Machine

/-- Settles O56: each byte of memory is loaded or kept, and a load keeps what any sequence of writes keeps. -/
theorem loadWritesConsecutiveBytes : Obligations.LoadWritesConsecutiveBytes := by
  intro start bytes s hf hw
  have hload := loadBytes_evolves start.toNat bytes s.bus
  refine ⟨?_, fun hne => ⟨_, ?_, fun x v hram hx hv => loadBytes_peek_loaded hf hw hram hx hv,
    fun x hplain hout => loadBytes_peek_kept hplain fun _ => hout,
    fun x hplain hram => loadBytes_peek_kept hplain fun hc => absurd (hc.symm.trans hram) (by decide),
    hload.rom, hload.shape⟩⟩
  · rintro rfl
    exact hostLoad_ready start [] hf
  · rw [hostLoad_ready start bytes hf, List.isEmpty_eq_false_iff.mpr hne]
    rfl

end Sys2Proof.Claims

/-!
The cycle count of a step (70_reset_and_hazards R332 to R336): the penalty of each kind of instruction, and bounds.
-/

namespace Sys2Proof.Machine

open Sys2Proof

/-- The most an instruction of an access class can pay beyond its base count. -/
def maxPenalty : AccessClass → Nat
  | .read => 1
  | .branch => 2
  | .write | .modify | .jump | .implied => 0

/-- The base counts leave room for the penalties (R335): a row of the table for each instruction. -/
theorem baseCycles_bounds (i : Instr) : 1 ≤ i.baseCycles ∧ i.baseCycles + maxPenalty i.mnemonic.accessClass ≤ 7 := by
  cases i <;> exact ⟨Nat.le_of_ble_eq_true rfl, Nat.le_of_ble_eq_true rfl⟩

theorem penaltyCycles_le (i : Instr) (s : State) : penaltyCycles i s ≤ maxPenalty i.mnemonic.accessClass := by
  unfold penaltyCycles
  split
  · next hread _ =>
    rw [hread]
    split <;> decide
  · next hbranch _ =>
    rw [hbranch]
    split
    · split <;> decide
    · decide
  · exact Nat.zero_le _

theorem instrCycles_bounds (i : Instr) (s : State) : 1 ≤ instrCycles i s ∧ instrCycles i s ≤ 7 := by
  obtain ⟨hlow, hhigh⟩ := baseCycles_bounds i
  have hpenalty := penaltyCycles_le i s
  unfold instrCycles
  omega

/-- A read-class instruction pays for the index that crosses a page (R332). -/
theorem penaltyCycles_read {i : Instr} {w : MemOperand} (hm : i.mnemonic.accessClass = .read)
    (ho : i.operand = .memory w) (s : State) : penaltyCycles i s = if indexCrosses w s then 1 else 0 := by
  simp only [penaltyCycles, hm, ho]

/-- No other access to memory pays (R332). -/
theorem penaltyCycles_not_read {i : Instr} {w : MemOperand} (hm : i.mnemonic.accessClass ≠ .read)
    (ho : i.operand = .memory w) (s : State) : penaltyCycles i s = 0 := by
  unfold penaltyCycles
  split
  · next hread _ => exact absurd hread hm
  · next hrel => cases ho.symm.trans hrel
  · rfl

/-- A mode whose base is its effective address crosses no page (30_encoding R77). -/
theorem indexCrosses_of_mode {w : MemOperand} (h : w.mode ∉ [.absx, .absy, .indy]) (s : State) :
    indexCrosses w s = false := by
  cases w with
  | absx | absy | indy => simp [MemOperand.mode] at h
  | zp | zpx | zpy | abs | indx => exact bne_self_eq_false _

/-- An instruction with a relative operand is a branch, of base count 2. -/
theorem accessClass_and_baseCycles_of_relative {i : Instr} {off : Byte} (ho : i.operand = .relative off) :
    i.mnemonic.accessClass = .branch ∧ i.baseCycles = 2 := by
  cases i with
  | bpl | bmi | bvc | bvs | bcc | bcs | bne | beq => exact ⟨rfl, rfl⟩
  | _ => cases ho

/-- What a branch costs (R333). -/
theorem instrCycles_relative {i : Instr} {off : Byte} (ho : i.operand = .relative off) (s : State) :
    instrCycles i s = if branchCondition i.mnemonic s then (if pageCrossed s.pc (s.pc + sext16 off) then 4 else 3)
      else 2 := by
  obtain ⟨hm, hbase⟩ := accessClass_and_baseCycles_of_relative ho
  simp only [instrCycles, penaltyCycles, hm, ho, hbase]
  split
  · split <;> rfl
  · rfl

end Sys2Proof.Machine

namespace Sys2Proof.Claims

open Sys2Proof Sys2Proof.Machine

/-- Settles O59: the bounds of the instruction that the step fetches. -/
theorem cycleCountsLieBetweenOneAndSeven : Obligations.CycleCountsLieBetweenOneAndSeven := fun s =>
  instrCycles_bounds (fetchInstr s).1 (fetchInstr s).2

/-- Settles O60: the penalty by access class and mode, and a branch's cost by where `branchIf` leaves PC. -/
theorem cyclePenalties : Obligations.CyclePenalties := by
  refine ⟨fun i s w ho => ⟨fun hm _ => ?_, fun hnone => ?_⟩, fun i s t off ho he => ?_⟩
  · rw [instrCycles, penaltyCycles_read hm ho, indexCrosses, pageCrossed_eq]
    simp only [decide_eq_true_eq, ne_eq, ite_not]
  · suffices hzero : penaltyCycles i s = 0 by rw [instrCycles, hzero, Nat.add_zero]
    by_cases hm : i.mnemonic.accessClass = .read
    · obtain hclass | hmode := hnone
      · exact absurd (hm ▸ hclass) (by decide)
      · rw [penaltyCycles_read hm ho, indexCrosses_of_mode hmode]
        rfl
    · exact penaltyCycles_not_read hm ho s
  · obtain ⟨F, hF, rfl, -⟩ := meaning_of_exec he
    rw [ho] at hF
    rw [branch_of_meaning hF, branchIf_eq, instrCycles_relative ho, pageCrossed_eq]
    exact ⟨fun hc => by simp [hc], fun hc => by simp [hc]⟩

end Sys2Proof.Claims

/-!
Runs for a cycle budget and runs until an address (70_reset_and_hazards R307 to R309).
-/

namespace Sys2Proof.Machine

open Sys2Proof Sys2Proof.Claims

/-- A machine that meets the invariant steps to one that does. -/
theorem step_of_inv {s : State} (hinv : s.inv = true) : ∃ t, step s = .next t ∧ t.inv = true := by
  obtain ⟨hr, hf, -⟩ := s.inv_iff.mp hinv
  obtain ⟨t, ht⟩ := stepIsTotal.1 s hr hf
  exact ⟨t, ht, stepKeepsTheInvariant s t hinv ht⟩

/-- The checks of a host operation that runs the core let a machine that meets the invariant pass. -/
theorem hostExecute_of_inv {s : State} (hinv : s.inv = true) (n : Nat) : hostExecute n s = executeLoop n n 0 s := by
  obtain ⟨hr, hf, -⟩ := s.inv_iff.mp hinv
  simp [hostExecute, hr, hf]

@[inherit_doc hostExecute_of_inv]
theorem hostRunUntil_of_inv {s : State} (hinv : s.inv = true) (fuel : Nat) (x : Addr) :
    hostRunUntil fuel x s = runUntilLoop fuel x s := by
  obtain ⟨hr, hf, -⟩ := s.inv_iff.mp hinv
  simp [hostRunUntil, hr, hf]

/-! ### The budget -/

theorem runCycles_succ {s t : State} (k : Nat) (h : step s = .next t) :
    runCycles (k + 1) s = stepCycles s + runCycles k t := by
  simp only [runCycles, h]

theorem executeLoop_zero (fuel used : Nat) (s : State) : executeLoop fuel 0 used s = .next (used, s) := by
  cases fuel <;> rfl

theorem executeLoop_succ {n : Nat} {s t : State} (fuel used : Nat) (hn : n ≠ 0) (h : step s = .next t) :
    executeLoop (fuel + 1) n used s = executeLoop fuel (n - stepCycles s) (used + stepCycles s) t := by
  simp only [executeLoop, if_neg hn, h]

/-- A run of `k` steps from `s` to `t` that spends a budget of `n` cycles with its last step. -/
structure Spends (n : Nat) (s : State) (k : Nat) (t : State) : Prop where
  run : Sys2Proof.core.run k s = .next t
  inv : t.inv = true
  spent : n ≤ runCycles k s
  overshoot : runCycles k s ≤ n + 6
  before : ∀ j < k, runCycles j s < n

theorem Spends.zero {s : State} (hinv : s.inv = true) : Spends 0 s 0 s :=
  ⟨rfl, hinv, Nat.le_refl 0, Nat.zero_le 6, fun _ hj => absurd hj (Nat.not_lt_zero _)⟩

/-- With no budget there is no step. -/
theorem Spends.steps_eq_zero {s t : State} {k : Nat} (h : Spends 0 s k t) : k = 0 :=
  Nat.eq_zero_of_not_pos fun hk => Nat.not_lt_zero _ (h.before 0 hk)

/-- A step ahead of a run that spends what the step leaves of the budget. Where it leaves nothing the run is empty, so
the step's own count is the whole overshoot. -/
theorem Spends.cons {n k : Nat} {s u t : State} (hn : n ≠ 0) (hstep : step s = .next u)
    (h : Spends (n - stepCycles s) u k t) : Spends n s (k + 1) t := by
  obtain ⟨-, hcost⟩ := cycleCountsLieBetweenOneAndSeven s
  have hcycles := runCycles_succ k hstep
  refine ⟨(core_run_succ k hstep).trans h.run, h.inv, ?_, ?_, fun j hj => ?_⟩
  · have := h.spent
    omega
  · obtain hleft | hleft := Nat.eq_zero_or_pos (n - stepCycles s)
    · obtain rfl := (hleft ▸ h).steps_eq_zero
      have hempty : runCycles 0 u = 0 := rfl
      omega
    · have := h.overshoot
      omega
  · cases j with
    | zero => exact Nat.pos_of_ne_zero hn
    | succ j =>
      have := h.before j (Nat.lt_of_succ_lt_succ hj)
      rw [runCycles_succ j hstep]
      omega

/-- The loop spends its budget, for which a fuel as large is enough: a step costs at least one cycle (R334). -/
theorem executeLoop_spends {fuel n : Nat} (used : Nat) {s : State} (hn : n ≤ fuel) (hinv : s.inv = true) :
    ∃ k t, Spends n s k t ∧ executeLoop fuel n used s = .next (used + runCycles k s, t) := by
  induction fuel generalizing n used s with
  | zero =>
    obtain rfl := Nat.le_zero.mp hn
    exact ⟨0, s, .zero hinv, rfl⟩
  | succ fuel ih =>
    by_cases h0 : n = 0
    · subst h0
      exact ⟨0, s, .zero hinv, executeLoop_zero _ _ _⟩
    · obtain ⟨u, hstep, hu⟩ := step_of_inv hinv
      obtain ⟨hcost, -⟩ := cycleCountsLieBetweenOneAndSeven s
      obtain ⟨k, t, hspends, hloop⟩ := ih (n := n - stepCycles s) (used + stepCycles s) (by omega) hu
      refine ⟨k + 1, t, hspends.cons h0 hstep, ?_⟩
      rw [executeLoop_succ fuel used h0 hstep, hloop, runCycles_succ k hstep, Nat.add_assoc]

/-! ### Run until -/

theorem runUntilLoop_reached {s : State} (fuel : Nat) : runUntilLoop fuel s.pc s = .next (true, s) := by
  cases fuel <;> simp [runUntilLoop]

theorem runUntilLoop_succ {s t : State} {x : Addr} (fuel : Nat) (hx : s.pc ≠ x) (h : step s = .next t) :
    runUntilLoop (fuel + 1) x s = runUntilLoop fuel x t := by
  simp only [runUntilLoop, if_neg hx, h]

/-- The loop's answer is the first state of the run at the address, or the one at which the fuel ends. -/
theorem runUntilLoop_first {s : State} (fuel : Nat) (x : Addr) (hinv : s.inv = true) :
    ∃ k t, k ≤ fuel ∧ runUntilLoop fuel x s = .next (t.pc == x, t) ∧ Sys2Proof.core.run k s = .next t ∧
      (t.pc ≠ x → k = fuel) ∧ ∀ j < k, ∃ u, Sys2Proof.core.run j s = .next u ∧ u.pc ≠ x := by
  induction fuel generalizing s with
  | zero => exact ⟨0, s, Nat.le_refl 0, rfl, rfl, fun _ => rfl, fun _ hj => absurd hj (Nat.not_lt_zero _)⟩
  | succ fuel ih =>
    by_cases hx : s.pc = x
    · subst hx
      exact ⟨0, s, Nat.zero_le _, by rw [runUntilLoop_reached, beq_self_eq_true], rfl, fun hc => absurd rfl hc,
        fun _ hj => absurd hj (Nat.not_lt_zero _)⟩
    · obtain ⟨u, hstep, hu⟩ := step_of_inv hinv
      obtain ⟨k, t, hk, hloop, hrun, hfuel, hfirst⟩ := ih hu
      refine ⟨k + 1, t, Nat.succ_le_succ hk, (runUntilLoop_succ fuel hx hstep).trans hloop,
        (core_run_succ k hstep).trans hrun, fun hc => congrArg (· + 1) (hfuel hc), fun j hj => ?_⟩
      cases j with
      | zero => exact ⟨s, rfl, hx⟩
      | succ j =>
        rw [core_run_succ j hstep]
        exact hfirst j (Nat.lt_of_succ_lt_succ hj)

end Sys2Proof.Machine

namespace Sys2Proof.Claims

open Sys2Proof Sys2Proof.Machine

/-- Settles O57: the loop started with its budget as fuel. -/
theorem executeSpendsItsBudget : Obligations.ExecuteSpendsItsBudget := by
  intro n s hinv
  obtain ⟨k, t, hspends, hloop⟩ := executeLoop_spends 0 (Nat.le_refl n) hinv
  rw [Nat.zero_add] at hloop
  refine ⟨k, t, (hostExecute_of_inv hinv n).trans hloop, hspends.run, hspends.inv, hspends.spent, hspends.overshoot,
    hspends.before, ?_⟩
  rintro rfl
  obtain rfl := hspends.steps_eq_zero
  exact ⟨rfl, (Host.Outcome.next.inj hspends.run).symm⟩

/-- Settles O58: induction on the fuel, in `runUntilLoop_first`. -/
theorem runUntilStopsAtTheFirstArrival : Obligations.RunUntilStopsAtTheFirstArrival := by
  intro fuel x s hinv
  rw [hostRunUntil_of_inv hinv]
  exact runUntilLoop_first fuel x hinv

end Sys2Proof.Claims
